-- ==== Sys2Proof/Word.lean ====
section
/-! DEFINITION. The bit patterns of the Thunderduck wide decimal kernel (TDK): the 128-bit operand and
result patterns, the 32-bit command word, bytes and limbs (R7, R9, 00_scope.md; R18, 10_state.md). -/

namespace Sys2Proof

/-- A 128-bit operand or result pattern (R7, R18). Bit 0 is the least significant bit (R9). -/
abbrev Word := BitVec 128

/-- The 32-bit command word of the CMD port (R18, R47). -/
abbrev CmdWord := BitVec 32

/-- Eight bits: the K field, STATUS, a byte of the byte-serial view (R30, R38, R48). -/
abbrev Byte := BitVec 8

/-- A 64-bit limb (R40, R65). -/
abbrev Limb := BitVec 64

end Sys2Proof
end

