-- ==== Sys2Proof/Syntax.lean ====
section
/-! DEFINITION. The commands of TDK: one constructor for each row of spec/opcode_table.json
(R53, 30_encoding.md). The operands A, B and C are ports captured with the command (R49), not fields of
the word; the one field an instruction carries is K (R48, R51). -/

namespace Sys2Proof

/-- The eight commands (R52, R53). K is an unsigned integer (R51); `Instr.wellFormed` bounds it. -/
inductive Instr where
  /-- ABS128: 128-bit absolute value (R63). -/
  | abs128
  /-- MUL128: unsigned 128 x 128 -> 256 multiply (R67). -/
  | mul128
  /-- DIV256: unsigned 256 / 128 divide with remainder (R70). -/
  | div256
  /-- POW10 #k: the ROM entry 10^k (R77). -/
  | pow10 (k : Nat)
  /-- DIVIDE #k: HALF_UP quotient with scale adjustment k (R84). -/
  | divide (k : Nat)
  /-- DIVTYPE: result type and scale adjustment of a division (R95). -/
  | divtype
  /-- SUMTYPE: result type of a sum (R99). -/
  | sumtype
  /-- AVGTYPE: result type of an average (R101). -/
  | avgtype
deriving DecidableEq, Repr

end Sys2Proof
end

