-- ==== Sys2Proof/WellFormed.lean ====
section
/-! DEFINITION. Which terms of `Instr` have an encoding. -/

namespace Sys2Proof

/-- A command is well-formed when its K fits the 8-bit field (R48, R51): a scale adjustment of 256 or
more has no encoding and must not be truncated into K. -/
def Instr.wellFormed : Instr → Bool
  | .abs128 => true
  | .mul128 => true
  | .div256 => true
  | .pow10 k => decide (k < 256)
  | .divide k => decide (k < 256)
  | .divtype => true
  | .sumtype => true
  | .avgtype => true

end Sys2Proof
end

