-- ==== Sys2Proof/Decode.lean ====
section
/-! DEFINITION. Decoding of the 32-bit command word, total over all 2^32 words (R47, R48, R52 to R54,
30_encoding.md), and after it the encoder. -/

namespace Sys2Proof

/-- Why a word is ILLEGAL (R54). Every reason has the same outcome, status ILLEGAL; the names say which
clause of R52 or R54 the word meets first. -/
inductive Illegal where
  /-- RSV1, CMD[31:16], is not zero. -/
  | reservedHigh
  /-- RSV0, CMD[7:5], is not zero. -/
  | reservedLow
  /-- OP is 0x00 or 0x09..0x1F. -/
  | reservedOp
  /-- K is not zero in a command that does not use it. -/
  | unusedK
deriving DecidableEq, Repr

/-- CMD[4:0] (R48). -/
def opField (w : CmdWord) : Nat := (w.extractLsb' 0 5).toNat

/-- CMD[7:5] (R48). -/
def rsv0Field (w : CmdWord) : Nat := (w.extractLsb' 5 3).toNat

/-- CMD[15:8], an unsigned integer 0..255 (R48, R51). -/
def kField (w : CmdWord) : Nat := (w.extractLsb' 8 8).toNat

/-- CMD[31:16] (R48). -/
def rsv1Field (w : CmdWord) : Nat := (w.extractLsb' 16 16).toNat

/-- A command that does not use K: legal only when K = 0 (the last check of R52). -/
def withoutK (w : CmdWord) (i : Instr) : Except Illegal Instr :=
  if kField w = 0 then .ok i else .error .unusedK

/-- The case analysis of R52 on OP (the opcode map R53). -/
def decodeOp (w : CmdWord) : Except Illegal Instr :=
  match opField w with
  | 0x01 => withoutK w .abs128
  | 0x02 => withoutK w .mul128
  | 0x03 => withoutK w .div256
  | 0x04 => .ok (.pow10 (kField w))
  | 0x05 => .ok (.divide (kField w))
  | 0x06 => withoutK w .divtype
  | 0x07 => withoutK w .sumtype
  | 0x08 => withoutK w .avgtype
  | _ => .error .reservedOp

/-- Decoding (R52): a command, or ILLEGAL with the reason. -/
def decode (w : CmdWord) : Except Illegal Instr :=
  if rsv1Field w ≠ 0 then .error .reservedHigh
  else if rsv0Field w ≠ 0 then .error .reservedLow
  else decodeOp w

/-- The OP number of a command (R53). -/
def Instr.opcode : Instr → Nat
  | .abs128 => 0x01
  | .mul128 => 0x02
  | .div256 => 0x03
  | .pow10 _ => 0x04
  | .divide _ => 0x05
  | .divtype => 0x06
  | .sumtype => 0x07
  | .avgtype => 0x08

/-- The K field of a command: its immediate, or 0 where K is unused (R48, R51). -/
def Instr.immediate : Instr → Nat
  | .pow10 k => k
  | .divide k => k
  | .abs128 => 0
  | .mul128 => 0
  | .div256 => 0
  | .divtype => 0
  | .sumtype => 0
  | .avgtype => 0

/-- The command word of a well-formed command: format C with RSV1 = RSV0 = 0 (R48). -/
def encode (i : Instr) : CmdWord := BitVec.ofNat 32 (i.immediate * 2 ^ 8 + i.opcode)

/-- The 32-bit word whose low `nbits` bits are those of `w`, every bit above them zero. TDK's one format
is one word on a parallel port, so there is no byte order to lay out (R38, R47). -/
def tableWord (nbits w : Nat) : CmdWord := BitVec.ofNat 32 (w % 2 ^ nbits)

/-- The instruction the decoder reads from an opcode-table row's word. -/
def decodeTableWord (nbits w : Nat) : Option Instr := (decode (tableWord nbits w)).toOption

end Sys2Proof
end

