-- ==== Sys2Proof/Machine/Flags.lean ====
section
/-! DEFINITION. STATUS, the only flag-like value TDK has (R29, R30, 10_state.md), its codes (R105,
60_exceptions.md), and the way a command ends (R12, 00_scope.md). There are no other flags. -/

namespace Sys2Proof.Machine

/-- The faults of a command: the non-OK rows of R105. -/
inductive FaultStatus where
  /-- The command word decodes to ILLEGAL. -/
  | illegal
  /-- The divisor is zero (DIV256, DIVIDE). -/
  | divZero
  /-- K > 38 (POW10, DIVIDE). -/
  | pow10Range
  /-- The 256/128 quotient would not fit in 128 bits (DIV256). -/
  | quotOvf
  /-- The rounded signed quotient is outside the i128 range (DIVIDE). -/
  | resultOvf
  /-- The 38-digit bound is broken and DIGIT_CHECK = true (DIVIDE). -/
  | digitOvf
  /-- A descriptor operand is invalid (DIVTYPE, SUMTYPE, AVGTYPE). -/
  | typeRange
deriving DecidableEq, Repr

/-- The outcomes of a command (R105). -/
inductive Status where
  /-- The command completed; RES0 and RES1 hold its results. -/
  | ok
  /-- The command faulted. -/
  | fault (f : FaultStatus)
deriving DecidableEq, Repr

/-- The 8-bit code on the STATUS port (R105). -/
def Status.code : Status → Byte
  | .ok => 0x00
  | .fault .illegal => 0x01
  | .fault .divZero => 0x02
  | .fault .pow10Range => 0x03
  | .fault .quotOvf => 0x04
  | .fault .resultOvf => 0x05
  | .fault .digitOvf => 0x06
  | .fault .typeRange => 0x07

/-- How a command ends (R12): `finish` with the two results it wrote, or at its first `raise`, which
writes no result. -/
inductive Result where
  /-- The command wrote RES0 and RES1 and finished with status OK. -/
  | finish (res0 res1 : Word)
  /-- The command ended with this non-OK status and wrote no result. -/
  | raise (f : FaultStatus)
deriving DecidableEq, Repr

end Sys2Proof.Machine
end

