-- ==== Sys2Proof/Machine/Operands.lean ====
section
/-! DEFINITION. How port values are read and written: signed and unsigned readings (R10, R58), 256-bit
values in two halves (R39), the limb view (R40, R65, R66), the byte-serial view (R38) and decimal type
descriptors (R56, R57). -/

namespace Sys2Proof.Machine

/-- enc128: the 128-bit pattern of an integer (R10). -/
def enc128 (n : Int) : Word := BitVec.ofInt 128 n

/-- The unsigned pattern of the absolute value, computed without a signed negation (R64). -/
def magnitudePattern (a : Word) : Word :=
  if a.msb then BitVec.ofNat 128 (2 ^ 128 - a.toNat) else a

/-- |s(a)| as an integer, 0 .. 2^127, taken with the ABS128 operation (R85). -/
def magnitude (a : Word) : Nat := (magnitudePattern a).toNat

/-- A UInt256: hi * 2^128 + lo (R13, R39). -/
structure UInt256 where
  /-- The high half. -/
  hi : Word
  /-- The low half. -/
  lo : Word
deriving DecidableEq, Repr

/-- The numeric value of a UInt256 (R39). -/
def uint256Value (v : UInt256) : Nat := v.hi.toNat * 2 ^ 128 + v.lo.toNat

/-- The UInt256 of a number below 2^256 (R39). -/
def uint256OfNat (n : Nat) : UInt256 :=
  { hi := BitVec.ofNat 128 (n / 2 ^ 128), lo := BitVec.ofNat 128 n }

/-- The two limbs of a pattern: `lower` is read unsigned, `upper` signed (R65). -/
structure Limbs where
  /-- v[63:0]. -/
  lower : Limb
  /-- v[127:64]. -/
  upper : Limb
deriving DecidableEq, Repr

/-- to_limbs (R65). -/
def toLimbs (v : Word) : Limbs := { lower := v.extractLsb' 0 64, upper := v.extractLsb' 64 64 }

/-- from_limbs (R65). -/
def fromLimbs (l : Limbs) : Word := l.upper ++ l.lower

/-- The signed value of a limb pair: upper * 2^64 + lower (R40, R65). -/
def limbsValue (l : Limbs) : Int := l.upper.toInt * 2 ^ 64 + l.lower.toNat

/-- The unsigned value of a limb pair (R40). -/
def limbsUnsigned (l : Limbs) : Nat := l.upper.toNat * 2 ^ 64 + l.lower.toNat

/-- Byte j of the byte-serial view: v[8j+7:8j], byte 0 first (R38). -/
def byteOf (v : Word) (j : Nat) : Byte := v.extractLsb' (8 * j) 8

/-- The 16 bytes of a pattern, little-endian (R38). -/
def toBytes (v : Word) : List Byte := (List.range 16).map (byteOf v)

/-- The number a little-endian list of bytes carries (R38). -/
def bytesValue : List Byte → Nat
  | [] => 0
  | b :: bs => b.toNat + 256 * bytesValue bs

/-- The pattern carried by a little-endian list of bytes (R38). -/
def fromBytes (bs : List Byte) : Word := BitVec.ofNat 128 (bytesValue bs)

/-- A DecimalTypeDescriptor (R13). -/
structure Descriptor where
  /-- The precision p. -/
  precision : Nat
  /-- The scale s. -/
  scale : Nat
deriving DecidableEq, Repr

/-- v[7:0] of a descriptor port (R56). -/
def precisionField (v : Word) : Nat := (v.extractLsb' 0 8).toNat

/-- v[15:8] of a descriptor port (R56). -/
def scaleField (v : Word) : Nat := (v.extractLsb' 8 8).toNat

/-- v[127:16] of a descriptor port (R56). -/
def upperField (v : Word) : Nat := (v.extractLsb' 16 112).toNat

/-- A descriptor is valid when v[127:16] = 0 and s <= p <= 38 (R56, R112). -/
def validDescriptor (v : Word) : Bool :=
  upperField v == 0 && decide (scaleField v ≤ precisionField v) && decide (precisionField v ≤ 38)

/-- The descriptor on a port, if it is valid (R56). -/
def readDescriptor (v : Word) : Option Descriptor :=
  if validDescriptor v then some { precision := precisionField v, scale := scaleField v } else none

/-- The packing of a descriptor: p at [7:0], s at [15:8], zero above (R56, R57). -/
def packDescriptor (p s : Nat) : Word := BitVec.ofNat 128 (s % 256 * 256 + p % 256)

end Sys2Proof.Machine
end

