-- ==== Sys2Proof/Config.lean ====
section
/-! DEFINITION. What an implementation fixes and what the spec leaves open: the parameters of R8
(00_scope.md) and the free values. The opaque constants have no body, so nothing can be proved of them. -/

namespace Sys2Proof

/-- LATENCY less one, as a function of the command word and the operands: a parameter of the
implementation, unbounded (R8, R20, R134; log entry 6). Adding the one is `Machine.latency`. -/
opaque Config.extraCycles : CmdWord → Word → Word → Word → Nat

/-- The n-th free 128-bit value: what RES0 and RES1 hold after a fault, and what a holding register holds
after RST and before the first reset (R12, R33, R127, R128; log entries 4, 5 and 14). -/
opaque Config.freeWord : Nat → Word

/-- The n-th free command word: what the command holding register holds after RST and
before the first reset (R127, R128; log entries 4 and 14). -/
opaque Config.freeCmd : Nat → CmdWord

/-- The n-th free status: what the response holding register's STATUS holds after RST and before the
first reset (R127, R128; log entries 4 and 14). -/
opaque Config.freeStatus : Nat → Byte

/-- The n-th free level: what REQ_READY and RSP_VALID show before the first reset (R127; log entry 14). -/
opaque Config.freeBit : Nat → Bool

/-- The default of the build parameter DIGIT_CHECK (R8, R91; log entry 7). -/
def Config.digitCheckDefault : Bool := true

/-- The default of the parameter INSTANCES (R8, R122; log entry 15). -/
def Config.instancesDefault : Nat := 1

end Sys2Proof
end

