-- ==== Sys2Proof/Machine/Rom.lean ====
section
/-! DEFINITION. The contents of the Pow10 ROM (R35, R37, 20_memory.md; R75, R76, 42_pow10.md): 39
constant 128-bit entries, entry i holding 10^i, written as the hex column of R76's table has them. -/

namespace Sys2Proof.Machine

/-- The 39 constants of R76. -/
def pow10Rom : Vector Word 39 :=
  #v[0x00000000000000000000000000000001#128,
     0x0000000000000000000000000000000A#128,
     0x00000000000000000000000000000064#128,
     0x000000000000000000000000000003E8#128,
     0x00000000000000000000000000002710#128,
     0x000000000000000000000000000186A0#128,
     0x000000000000000000000000000F4240#128,
     0x00000000000000000000000000989680#128,
     0x00000000000000000000000005F5E100#128,
     0x0000000000000000000000003B9ACA00#128,
     0x000000000000000000000002540BE400#128,
     0x0000000000000000000000174876E800#128,
     0x0000000000000000000000E8D4A51000#128,
     0x0000000000000000000009184E72A000#128,
     0x000000000000000000005AF3107A4000#128,
     0x000000000000000000038D7EA4C68000#128,
     0x0000000000000000002386F26FC10000#128,
     0x0000000000000000016345785D8A0000#128,
     0x00000000000000000DE0B6B3A7640000#128,
     0x00000000000000008AC7230489E80000#128,
     0x00000000000000056BC75E2D63100000#128,
     0x000000000000003635C9ADC5DEA00000#128,
     0x000000000000021E19E0C9BAB2400000#128,
     0x000000000000152D02C7E14AF6800000#128,
     0x000000000000D3C21BCECCEDA1000000#128,
     0x0000000000084595161401484A000000#128,
     0x000000000052B7D2DCC80CD2E4000000#128,
     0x00000000033B2E3C9FD0803CE8000000#128,
     0x00000000204FCE5E3E25026110000000#128,
     0x00000001431E0FAE6D7217CAA0000000#128,
     0x0000000C9F2C9CD04674EDEA40000000#128,
     0x0000007E37BE2022C0914B2680000000#128,
     0x000004EE2D6D415B85ACEF8100000000#128,
     0x0000314DC6448D9338C15B0A00000000#128,
     0x0001ED09BEAD87C0378D8E6400000000#128,
     0x0013426172C74D822B878FE800000000#128,
     0x00C097CE7BC90715B34B9F1000000000#128,
     0x0785EE10D5DA46D900F436A000000000#128,
     0x4B3B4CA85A86C47A098A224000000000#128]

/-- Reading a ROM entry: indices 0 to 38 are entries, every other index addresses none (R35, R36). -/
def romRead (rom : Vector Word 39) (index : Nat) : Option Word := rom[index]?

end Sys2Proof.Machine
end

