-- ==== Sys2Proof/Machine/State.lean ====
section
/-! DEFINITION. The state of one TDK instance and its reset (R16 to R34, 10_state.md; R126 to R129,
70_reset_and_hazards.md). TDK has no memory, registers, program counter or modes (R27 to R31, R35, R117). -/

namespace Sys2Proof.Machine

/-- The levels on the input ports (R18). CLK is not among them: a step is one rising edge of it. -/
structure Pins where
  /-- RST. -/
  rst : Bool
  /-- REQ_VALID. -/
  reqValid : Bool
  /-- RSP_READY. -/
  rspReady : Bool
  /-- CMD. -/
  cmd : CmdWord
  /-- A. -/
  a : Word
  /-- B. -/
  b : Word
  /-- C. -/
  c : Word
deriving DecidableEq, Repr

/-- The command holding register, 416 bits (R24). -/
structure Command where
  /-- The captured CMD. -/
  cmd : CmdWord
  /-- The captured A. -/
  a : Word
  /-- The captured B. -/
  b : Word
  /-- The captured C. -/
  c : Word
deriving DecidableEq, Repr

/-- The response holding register, 264 bits (R25). -/
structure Response where
  /-- RES0. -/
  res0 : Word
  /-- RES1. -/
  res1 : Word
  /-- STATUS; its codes are `Status.code` (R30, R105). -/
  status : Byte
deriving DecidableEq, Repr

/-- Where the one command of the unit is (R21, R32), or that the unit has not been reset yet (R127). -/
inductive Phase where
  /-- Power is on and no edge with RST = 1 has come yet: every output is unspecified (R127). -/
  | powerUp
  /-- No command is in flight. -/
  | idle
  /-- A command is captured; after `wait` more edges, the next edge completes it (R20, R26(c)). -/
  | busy (wait : Nat)
  /-- A response is held and waits to be taken. -/
  | done
deriving DecidableEq, Repr

/-- The state of one TDK instance. -/
structure State where
  /-- The levels the host drives on the input ports now. -/
  pins : Pins
  /-- The MODEL's own: the levels the host drives after each later edge; when it is empty the host
  holds the present levels (log entry 2). -/
  script : List Pins
  /-- Idle, Busy or Done (R32), or before the first reset (R127). -/
  phase : Phase
  /-- The command holding register (R24). -/
  held : Command
  /-- The response holding register (R25). -/
  resp : Response
  /-- The build parameter DIGIT_CHECK (R8, R30, R34). -/
  digitCheck : Bool
  /-- The Pow10 ROM (R17, R34, R75). -/
  rom : Vector Word 39
  /-- The MODEL's own: how many free values have been used (log entry 9). -/
  drawn : Nat
deriving DecidableEq, Repr

/-- The faults. `step` raises none of them: every word gets a response (R125). Both are faults of the
host at the interface. -/
inductive Fault where
  /-- Raised by `readStatus`, `readRes0` and `readRes1` when RSP_VALID = 0 (the host's duty R22(b)).
  Safe: the hardware would show some level. -/
  | noResponse
  /-- Raised by `readRes0` and `readRes1` when STATUS is not OK (R33, R125). Safe: the hardware would
  show some level. -/
  | unspecifiedResult
deriving DecidableEq, Repr

/-- The refusals. `step` raises none of them; all but the first are refusals of the host-program layer
(R125: "a host-level event"). -/
inductive Refusal where
  /-- Would be raised by `exec` for an instruction without a meaning; no arm raises it. Safe. -/
  | notModelled (mnemonic : String)
  /-- Raised by the host layer when a K expression is negative, as in AVGFIN with scale >= 19 (R51,
  R61, R103). Safe: no command is issued. -/
  | negativeAdjustment
  /-- Raised by the host layer when a K value is 256 or more (R51). Safe: no command is issued. -/
  | adjustmentTooWide
  /-- Raised by the AVGFIN macro when the count is 0 (R61). Safe: no command is issued. -/
  | zeroCount
  /-- Raised by the host layer for a reference to a line that has no response yet (R60 does not speak of it;
  DESIGN CHOICE, log entry 25). Safe: no command is issued. -/
  | badReference
deriving DecidableEq, Repr

/-- The input ports as State.reset has them: the host drives nothing (DESIGN CHOICE, log entry 2). -/
def Pins.quiet : Pins :=
  { rst := false, reqValid := false, rspReady := false, cmd := 0, a := 0, b := 0, c := 0 }

/-- The machine right after power is applied, before the first edge with RST = 1 (R127): the holding
registers take free values and so do the outputs (log entry 14). The levels are the host's, DIGIT_CHECK is
the build's, and the ROM needs no initialisation (R75, R130). -/
def State.powerUp (digitCheck : Bool) (pins : Pins) (script : List Pins) : State :=
  { pins := pins
    script := script
    phase := .powerUp
    held :=
      { cmd := Config.freeCmd 0, a := Config.freeWord 0, b := Config.freeWord 1, c := Config.freeWord 2 }
    resp := { res0 := Config.freeWord 3, res1 := Config.freeWord 4, status := Config.freeStatus 0 }
    digitCheck := digitCheck
    rom := pow10Rom
    drawn := 5 }

/-- The machine right after reset, RST back at 0 (R34, R128): Idle, no command in flight, the ROM and
DIGIT_CHECK at their constants. The holding registers are unspecified there and take 0 (DESIGN CHOICE,
log entry 3). -/
def State.reset : State :=
  { pins := Pins.quiet
    script := []
    phase := .idle
    held := { cmd := 0, a := 0, b := 0, c := 0 }
    resp := { res0 := 0, res1 := 0, status := 0 }
    digitCheck := Config.digitCheckDefault
    rom := pow10Rom
    drawn := 0 }

end Sys2Proof.Machine
end

