-- ==== Sys2Proof/Machine/Ops.lean ====
section
/-! DEFINITION. The named operations on the state: the handshake (R18 to R23, 10_state.md), reset (R128,
70_reset_and_hazards.md), the two ways a command ends (R12, 00_scope.md), which are TDK's only form of
taking an exception and returning from one (R114, R115, 60_exceptions.md), and the host's reads. -/

namespace Sys2Proof.Machine

/-- No edge with RST = 1 has come since power was applied (R127). -/
def State.awaitingReset (s : State) : Bool :=
  match s.phase with
  | .powerUp => true
  | .idle => false
  | .busy _ => false
  | .done => false

/-- A command is in flight from acceptance until its response is taken (R21). -/
def State.inFlight (s : State) : Bool :=
  match s.phase with
  | .powerUp => false
  | .idle => false
  | .busy _ => true
  | .done => true

/-- A response is held: the phase is Done (R32). -/
def State.responding (s : State) : Bool :=
  match s.phase with
  | .powerUp => false
  | .idle => false
  | .busy _ => false
  | .done => true

/-- REQ_READY: 1 exactly when no command is in flight and RST = 0 (R21, R128; log entry 11); before the
first reset a free level, whatever RST is (R127; log entry 14). -/
def State.reqReady (s : State) : Bool :=
  if s.awaitingReset then Config.freeBit s.drawn else !s.inFlight && !s.pins.rst

/-- RSP_VALID: 1 exactly while a response is held and RST = 0 (R20, R128; log entry 11); before the first
reset a free level, whatever RST is (R127; log entry 14). -/
def State.rspValid (s : State) : Bool :=
  if s.awaitingReset then Config.freeBit (s.drawn + 1) else s.responding && !s.pins.rst

/-- After an edge the host drives the next levels of its script, or holds the present ones (R23; log
entry 2). -/
def State.nextPins (s : State) : State :=
  match s.script with
  | [] => s
  | p :: rest => { s with pins := p, script := rest }

/-- LATENCY: at least 1 cycle (R8, R20, R134). -/
def latency (c : Command) : Nat := Config.extraCycles c.cmd c.a c.b c.c + 1

/-- What the command holding register captures at the accepting edge: CMD, A, B and C together (R19, R24,
R42). -/
def capturedCommand (p : Pins) : Command := { cmd := p.cmd, a := p.a, b := p.b, c := p.c }

/-- Acceptance, Idle -> Busy (R19, R32): the command is captured, and completes at the LATENCY-th edge
after this one. That the response holding register keeps the previous response, unseen, is the model's choice
(DESIGN CHOICE, log entry 10). -/
def State.accept (s : State) : State :=
  { s with held := capturedCommand s.pins, phase := .busy (latency (capturedCommand s.pins) - 1) }

/-- One edge of waiting (R20). The response holding register still keeps the previous response, unseen
(DESIGN CHOICE, log entry 10). -/
def State.waitOn (s : State) (wait : Nat) : State := { s with phase := .busy wait }

/-- `finish` (R12): the command ends with status OK and its two results, Busy -> Done (R32). -/
def State.finish (s : State) (res0 res1 : Word) : State :=
  { s with phase := .done, resp := { res0 := res0, res1 := res1, status := Status.ok.code } }

/-- `raise` (R12), TDK's exception entry: it saves nothing, changes no mode and transfers control nowhere;
it ends the command with a non-OK status (R107, R108, R114). RES0 and RES1 are free values (R33; log
entry 5). -/
def State.raise (s : State) (f : FaultStatus) : State :=
  { s with
    phase := .done
    resp :=
      { res0 := Config.freeWord s.drawn
        res1 := Config.freeWord (s.drawn + 1)
        status := (Status.fault f).code }
    drawn := s.drawn + 2 }

/-- Completion, Busy -> Done, with the way the command ended (R32, R33). -/
def State.complete (s : State) (r : Result) : State :=
  match r with
  | .finish res0 res1 => s.finish res0 res1
  | .raise f => s.raise f

/-- Taking the response, Done -> Idle (R20, R32). After a fault too: there is nothing to restore (R115).
The holding registers keep what they hold, unseen (log entry 10). -/
def State.takeResponse (s : State) : State := { s with phase := .idle }

/-- Both holding registers take fresh free values (R127, R128; log entries 4 and 14). -/
def State.withFreeRegisters (s : State) : State :=
  { s with
    held :=
      { cmd := Config.freeCmd s.drawn
        a := Config.freeWord s.drawn
        b := Config.freeWord (s.drawn + 1)
        c := Config.freeWord (s.drawn + 2) }
    resp :=
      { res0 := Config.freeWord (s.drawn + 3)
        res1 := Config.freeWord (s.drawn + 4)
        status := Config.freeStatus s.drawn }
    drawn := s.drawn + 5 }

/-- An edge with RST = 1 (R128): Idle, also from power-up (R127); a command in flight and a response not
yet taken are dropped; the holding registers take free values (log entry 4); the ROM and DIGIT_CHECK are
unaffected. -/
def State.resetEdge (s : State) : State := { s.withFreeRegisters with phase := .idle }

/-- An edge with RST = 0 before the first reset (R127): nothing on the outputs is specified, so the
result ports, REQ_READY and RSP_VALID take fresh free values (log entry 14). -/
def State.powerUpEdge (s : State) : State := s.withFreeRegisters

/-- An edge in Idle: acceptance when REQ_VALID = 1 and REQ_READY = 1 (R19). -/
def State.idleEdge (s : State) : State := if s.pins.reqValid && s.reqReady then s.accept else s

/-- An edge in Done: the response is taken when RSP_VALID = 1 and RSP_READY = 1 (R20). -/
def State.doneEdge (s : State) : State :=
  if s.rspValid && s.pins.rspReady then s.takeResponse else s

/-- What the command holding register decodes to (R33, R52). TDK fetches nothing from a memory (R28). -/
def State.fetch (s : State) : Except Illegal Instr := decode s.held.cmd

/-- An illegal word ends with status ILLEGAL and reads no operand (R52, R111). -/
def execIllegal (s : State) : Host.Outcome State Fault Refusal := .next (s.complete (.raise .illegal))

/-- The same outcome with the host's next levels on the ports. -/
def afterEdge (o : Host.Outcome State Fault Refusal) : Host.Outcome State Fault Refusal :=
  match o with
  | .next t => .next t.nextPins
  | .fault r => .fault r
  | .refused r => .refused r

/-- The host reads STATUS: only while RSP_VALID = 1 (R22(b)). -/
def State.readStatus (s : State) : Host.Outcome Byte Fault Refusal :=
  if s.rspValid then .next s.resp.status else .fault .noResponse

/-- The host reads a result: only while RSP_VALID = 1 (R22(b)) and only of a response whose STATUS is OK
(R33, R116, R125). -/
def State.readResult (s : State) (pick : Response → Word) : Host.Outcome Word Fault Refusal :=
  if s.rspValid then
    if s.resp.status = Status.ok.code then .next (pick s.resp) else .fault .unspecifiedResult
  else .fault .noResponse

/-- The host reads RES0. -/
def State.readRes0 (s : State) : Host.Outcome Word Fault Refusal := s.readResult Response.res0

/-- The host reads RES1. -/
def State.readRes1 (s : State) : Host.Outcome Word Fault Refusal := s.readResult Response.res1

end Sys2Proof.Machine
end

