-- ==== Sys2Proof/Machine/Wide256.lean ====
section
/-! DEFINITION. Family Wide256: MUL128 and DIV256 (R67 to R74, 41_wide256.md), with the two algorithms the
spec writes out: the schoolbook multiply (R68) and the binary long division (R72). -/

namespace Sys2Proof.Machine

/-- mul128: the exact 256-bit product (R67). -/
def mul128 (a b : Word) : UInt256 := uint256OfNat (a.toNat * b.toNat)

/-- MUL128's result: RES0 = lo, RES1 = hi (R39, R67). -/
def mulResult (a b : Word) : Result := .finish (mul128 a b).lo (mul128 a b).hi

/-- MUL128 (R67). C is ignored (R49). -/
def execMul128 (s : State) : Host.Outcome State Fault Refusal :=
  .next (s.complete (mulResult s.held.a s.held.b))

/-- The quotient of div256by128 on a legal operand (R70). -/
def wideQuotient (num : UInt256) (den : Word) : Word := BitVec.ofNat 128 (uint256Value num / den.toNat)

/-- The remainder of div256by128 on a legal operand (R70). -/
def wideRemainder (num : UInt256) (den : Word) : Word := BitVec.ofNat 128 (uint256Value num % den.toNat)

/-- DIV256's result: DIV_ZERO first, then QUOT_OVF when num.hi >= den, else quotient and remainder (R70,
R71, R110). -/
def divResult (num : UInt256) (den : Word) : Result :=
  if den.toNat = 0 then .raise .divZero
  else if den.toNat ≤ num.hi.toNat then .raise .quotOvf
  else .finish (wideQuotient num den) (wideRemainder num den)

/-- DIV256 (R70): the numerator is C:A, the divisor B (R39, R49). -/
def execDiv256 (s : State) : Host.Outcome State Fault Refusal :=
  .next (s.complete (divResult { hi := s.held.c, lo := s.held.a } s.held.b))

/-- A 64 x 64 -> 128 partial product (R68). -/
def partialProduct (x y : Limb) : Word := BitVec.ofNat 128 (x.toNat * y.toNat)

/-- A carry of the schoolbook multiply, detected by comparison (R68). -/
def carryOf (sum addend : Word) : Word := if sum < addend then 1 else 0

/-- The document's schoolbook multiply, every sum modulo 2^128 (R68). -/
def mulSchoolbook (a b : Word) : UInt256 :=
  let p00 := partialProduct (toLimbs a).lower (toLimbs b).lower
  let p01 := partialProduct (toLimbs a).lower (toLimbs b).upper
  let p10 := partialProduct (toLimbs a).upper (toLimbs b).lower
  let p11 := partialProduct (toLimbs a).upper (toLimbs b).upper
  let mid := p01 + p10
  let cMid := carryOf mid p01
  let lo := p00 + ((mid &&& 0xFFFFFFFFFFFFFFFF) <<< 64)
  let cLo := carryOf lo p00
  { hi := p11 + (mid >>> 64) + (cMid <<< 64) + cLo, lo := lo }

/-- The bit-serial loop of R72 over the lowest `bits` bits of the numerator, the highest of them first:
the running remainder and quotient go in and come out. -/
def longDivideLoop (num den : Nat) : Nat → Nat × Nat → Nat × Nat
  | 0, acc => acc
  | bits + 1, (rem, q) =>
    let rem' := 2 * rem + (num >>> bits) % 2
    if den ≤ rem' then longDivideLoop num den bits (rem' - den, 2 * q + 1)
    else longDivideLoop num den bits (rem', 2 * q)

/-- Binary long division of all 256 bits, giving (quotient, remainder) (R72). -/
def longDivide (num : UInt256) (den : Word) : Nat × Nat :=
  let out := longDivideLoop (uint256Value num) den.toNat 256 (0, 0)
  (out.2, out.1)

end Sys2Proof.Machine
end

