-- ==== Sys2Proof/Machine/DecimalDivide.lean ====
section
/-! DEFINITION. Family DecimalDivide: DIVIDE (R81 to R94, 43_decimal_divide.md), and beside it the
two-path form of the document (R87). -/

namespace Sys2Proof.Machine

/-- 10^38, the 38-digit bound (R91). -/
def digitBound : Nat := 10 ^ 38

/-- An operand of 10^38 or more in magnitude (R91(a)). -/
def tooManyDigits (v : Word) : Bool := decide (digitBound ≤ magnitude v)

/-- The operand half of the 38-digit check, made only when DIGIT_CHECK = true (R91(a)). -/
def operandsOverDigits (digitCheck : Bool) (a b : Word) : Bool :=
  digitCheck && (tooManyDigits a || tooManyDigits b)

/-- HALF_UP from a quotient and remainder: the midpoint 2r = d increments (R83, R88). -/
def roundHalfUp (q r d : Nat) : Nat := if d ≤ 2 * r then q + 1 else q

/-- The scaled dividend: scaling is skipped when K = 0 (R84, R86). -/
def scaledDividend (ua k : Nat) (pow : Word) : Nat := if k = 0 then ua else ua * pow.toNat

/-- Step 5 (R85, R89): the sign of the quotient applied to the rounded magnitude. -/
def applySign (a b : Word) (q : Nat) : Int :=
  if decide (a.toInt < 0) != decide (b.toInt < 0) then -(q : Int) else (q : Int)

/-- The i128 range (R90). -/
def fitsI128 (n : Int) : Bool := decide (-(2 ^ 127) ≤ n) && decide (n ≤ 2 ^ 127 - 1)

/-- From the rounded magnitude to the end of the command: RESULT_OVF, then DIGIT_OVF on the result, then
the result (R89 to R91). -/
def signedQuotient (digitCheck : Bool) (a b : Word) (q : Nat) : Result :=
  if !fitsI128 (applySign a b q) then .raise .resultOvf
  else if digitCheck && decide (digitBound ≤ q) then .raise .digitOvf
  else .finish (enc128 (applySign a b q)) 0

/-- The rounded magnitude of the quotient, exactly (R84, R88). -/
def quotientMagnitude (a b : Word) (k : Nat) (pow : Word) : Nat :=
  roundHalfUp (scaledDividend (magnitude a) k pow / magnitude b)
    (scaledDividend (magnitude a) k pow % magnitude b) (magnitude b)

/-- DIVIDE's result, its checks in the order of R84 and R110. -/
def divideResult (digitCheck : Bool) (rom : Vector Word 39) (k : Nat) (a b : Word) : Result :=
  if b.toInt = 0 then .raise .divZero
  else
    match romRead rom k with
    | none => .raise .pow10Range
    | some pow =>
      if operandsOverDigits digitCheck a b then .raise .digitOvf
      else signedQuotient digitCheck a b (quotientMagnitude a b k pow)

/-- DIVIDE #k (R84). C is ignored (R49). -/
def execDivide (k : Nat) (s : State) : Host.Outcome State Fault Refusal :=
  .next (s.complete (divideResult s.digitCheck s.rom k s.held.a s.held.b))

/-- The document's fast path: the scaled dividend fits in 128 bits and is divided there (R87). -/
def fastPathApplies (ua k : Nat) (pow : Word) : Bool := decide (scaledDividend ua k pow < 2 ^ 128)

/-- Quotient and remainder by the document's two paths; none where the slow path's precondition fails
(R87). -/
def twoPathQuotient (a b : Word) (k : Nat) (pow : Word) : Option (Nat × Nat) :=
  if fastPathApplies (magnitude a) k pow then
    some (scaledDividend (magnitude a) k pow / magnitude b, scaledDividend (magnitude a) k pow % magnitude b)
  else
    let product := mul128 (magnitudePattern a) pow
    if magnitude b ≤ product.hi.toNat then none
    else some ((wideQuotient product (magnitudePattern b)).toNat, (wideRemainder product (magnitudePattern b)).toNat)

/-- DIVIDE computed by the document's two paths; a failed slow-path precondition is RESULT_OVF, never
QUOT_OVF (R87, R90). -/
def divideByPaths (digitCheck : Bool) (rom : Vector Word 39) (k : Nat) (a b : Word) : Result :=
  if b.toInt = 0 then .raise .divZero
  else
    match romRead rom k with
    | none => .raise .pow10Range
    | some pow =>
      if operandsOverDigits digitCheck a b then .raise .digitOvf
      else
        match twoPathQuotient a b k pow with
        | none => .raise .resultOvf
        | some (q, r) => signedQuotient digitCheck a b (roundHalfUp q r (magnitude b))

end Sys2Proof.Machine
end

