-- ==== Sys2Proof/Machine/Pow10.lean ====
section
/-! DEFINITION. Family Pow10Table: POW10 (R75 to R80, 42_pow10.md). -/

namespace Sys2Proof.Machine

/-- POW10's result: the ROM entry, or POW10_RANGE where K addresses none (R77, R78). -/
def pow10Result (rom : Vector Word 39) (k : Nat) : Result :=
  match romRead rom k with
  | some v => .finish v 0
  | none => .raise .pow10Range

/-- POW10 #k (R77). A, B and C are ignored (R49). -/
def execPow10 (k : Nat) (s : State) : Host.Outcome State Fault Refusal :=
  .next (s.complete (pow10Result s.rom k))

end Sys2Proof.Machine
end

