-- ==== Sys2Proof/Machine/PrecisionRules.lean ====
section
/-! DEFINITION. Family PrecisionRules: DIVTYPE, SUMTYPE and AVGTYPE (R95 to R104, 44_precision_rules.md). The
constants 38, 6, 10, 4 and 18 are fixed (R104). -/

namespace Sys2Proof.Machine

/-- The maximum decimal precision (R7, R104). -/
def maxPrecision : Nat := 38

/-- The division minimum scale constant (R7, R104). -/
def minDivisionScale : Nat := 6

/-- The sum's precision growth (R7, R104). -/
def sumGrowth : Nat := 10

/-- The average's precision and scale growth (R7, R104). -/
def avgGrowth : Nat := 4

/-- The average's scale cap (R7, R104). -/
def avgScaleCap : Nat := 18

/-- The scale of a division before the cap (R95). -/
def uncappedScale (d1 d2 : Descriptor) : Nat := max minDivisionScale (d1.scale + d2.precision + 1)

/-- The precision of a division before the cap (R95). -/
def uncappedPrecision (d1 d2 : Descriptor) : Nat :=
  (d1.precision - d1.scale) + d2.scale + uncappedScale d1 d2

/-- The scale of a division whose precision is over 38 (R95): `intDigits` is rp - rs. -/
def cappedScale (rs intDigits : Nat) : Nat :=
  if intDigits < maxPrecision then max (maxPrecision - intDigits) (min rs minDivisionScale)
  else min rs minDivisionScale

/-- division_type: the result type of a division (R95). -/
def divisionType (d1 d2 : Descriptor) : Descriptor :=
  if maxPrecision < uncappedPrecision d1 d2 then
    { precision := maxPrecision
      scale := cappedScale (uncappedScale d1 d2) (uncappedPrecision d1 d2 - uncappedScale d1 d2) }
  else { precision := uncappedPrecision d1 d2, scale := uncappedScale d1 d2 }

/-- The derived scale adjustment rs - s1 + s2, on unbounded integers (R11, R95, R96; log entry 17). -/
def scaleAdjustment (d1 d2 : Descriptor) : Int :=
  ((divisionType d1 d2).scale : Int) - d1.scale + d2.scale

/-- sum_type (R99). -/
def sumType (d : Descriptor) : Descriptor :=
  { precision := min (d.precision + sumGrowth) maxPrecision, scale := d.scale }

/-- avg_type (R101), with the last cap as written (R102). -/
def avgType (d : Descriptor) : Descriptor :=
  { precision := min (d.precision + avgGrowth) maxPrecision
    scale := min (min (d.scale + avgGrowth) avgScaleCap) (min (d.precision + avgGrowth) maxPrecision) }

/-- A descriptor written on a result port (R57). -/
def descriptorPattern (d : Descriptor) : Word := packDescriptor d.precision d.scale

/-- DIVTYPE's result: TYPE_RANGE on A, then on B, then the type and the adjustment (R95, R110). -/
def divtypeResult (a b : Word) : Result :=
  match readDescriptor a with
  | none => .raise .typeRange
  | some d1 =>
    match readDescriptor b with
    | none => .raise .typeRange
    | some d2 => .finish (descriptorPattern (divisionType d1 d2)) (enc128 (scaleAdjustment d1 d2))

/-- A one-descriptor command: TYPE_RANGE on A, then the type; RES1 = 0 (R50, R110). -/
def typeResult (rule : Descriptor → Descriptor) (a : Word) : Result :=
  match readDescriptor a with
  | none => .raise .typeRange
  | some d => .finish (descriptorPattern (rule d)) 0

/-- DIVTYPE (R95). C is ignored (R49). -/
def execDivtype (s : State) : Host.Outcome State Fault Refusal :=
  .next (s.complete (divtypeResult s.held.a s.held.b))

/-- SUMTYPE (R99). B and C are ignored (R49). -/
def execSumtype (s : State) : Host.Outcome State Fault Refusal :=
  .next (s.complete (typeResult sumType s.held.a))

/-- AVGTYPE (R101). B and C are ignored (R49). -/
def execAvgtype (s : State) : Host.Outcome State Fault Refusal :=
  .next (s.complete (typeResult avgType s.held.a))

end Sys2Proof.Machine
end

