-- ==== Sys2Proof/Machine/WideInt.lean ====
section
/-! DEFINITION. Family WideInt: ABS128 (R63, R64, 40_wideint.md). -/

namespace Sys2Proof.Machine

/-- ABS128's result: |s(A)| as an unsigned pattern, RES1 = 0 (R63, by R64's unsigned form). -/
def abs128 (a : Word) : Result := .finish (magnitudePattern a) 0

/-- ABS128 (R63). B and C are ignored (R49). -/
def execAbs128 (s : State) : Host.Outcome State Fault Refusal := .next (s.complete (abs128 s.held.a))

end Sys2Proof.Machine
end

