-- ==== Sys2Proof/Machine/Dispatch.lean ====
section
/-! DEFINITION. One arm for each command (R33, R53). -/

namespace Sys2Proof.Machine

def exec (i : Instr) (s : State) : Host.Outcome State Fault Refusal :=
  match i with
  | .abs128 => Sys2Proof.Machine.execAbs128 s
  | .mul128 => Sys2Proof.Machine.execMul128 s
  | .div256 => Sys2Proof.Machine.execDiv256 s
  | .pow10 k => Sys2Proof.Machine.execPow10 k s
  | .divide k => Sys2Proof.Machine.execDivide k s
  | .divtype => Sys2Proof.Machine.execDivtype s
  | .sumtype => Sys2Proof.Machine.execSumtype s
  | .avgtype => Sys2Proof.Machine.execAvgtype s

end Sys2Proof.Machine
end

