-- ==== Sys2Proof/Machine/Edge.lean ====
section
/-! DEFINITION. What a rising edge of CLK does to the unit (R18 to R21, R32, R33, 10_state.md; R128,
70_reset_and_hazards.md), before the host drives its next levels. -/

namespace Sys2Proof.Machine

/-- The completing edge: the held word is decoded and run (R33). -/
def completeEdge (s : State) : Host.Outcome State Fault Refusal :=
  match s.fetch with
  | .ok i => exec i s
  | .error _ => execIllegal s

/-- An edge with RST = 0: acceptance, waiting, completion or taking the response (R32), or one before the
first reset (R127). -/
def runningEdge (s : State) : Host.Outcome State Fault Refusal :=
  match s.phase with
  | .powerUp => .next s.powerUpEdge
  | .idle => .next s.idleEdge
  | .busy 0 => completeEdge s
  | .busy (wait + 1) => .next (s.waitOn wait)
  | .done => .next s.doneEdge

/-- An edge: RST = 1 goes before everything else (R127, R128). -/
def edge (s : State) : Host.Outcome State Fault Refusal :=
  if s.pins.rst then .next s.resetEdge else runningEdge s

/-- The state in which the command `c` has just been captured and its LATENCY has run out, RST = 0: the
next edge completes it. R32 lets a model merge acceptance and completion in this way. -/
def State.presented (s : State) (c : Command) : State :=
  { s with pins := { s.pins with rst := false }, phase := .busy 0, held := c }

end Sys2Proof.Machine
end

