-- ==== Sys2Proof/Machine/Step.lean ====
section
/-! DEFINITION. One step is one rising edge of CLK (R18 to R21, 10_state.md). -/

namespace Sys2Proof.Machine

/-- One rising edge of CLK: the unit's edge, and then the host's next levels on the input ports. -/
def step (s : State) : Host.Outcome State Fault Refusal := afterEdge (edge s)

/-- The state in which the word has just been fetched: it stands in the command holding register, its
LATENCY has run out and RST = 0, so that the next step completes it (log entry 13). -/
def State.withFetchWord (s : State) (nbits w : Nat) : State :=
  s.presented { s.held with cmd := tableWord nbits w }

end Sys2Proof.Machine
end

