-- ==== Sys2Proof/Machine/HostProgram.lean ====
section
/-! DEFINITION. The host side the spec describes: programs in its notation (R59, R60, 30_encoding.md), the
two macros (R61) and how a program ends (R119, R125, 60_exceptions.md). None of it is state of TDK (R28);
log entry 16. -/

namespace Sys2Proof.Machine

/-- RES0 or RES1 of a response: `.R0`, `.R1` (R60). -/
inductive ResPort where
  /-- `.R0`. -/
  | r0
  /-- `.R1`. -/
  | r1
deriving DecidableEq, Repr

/-- A port value in the notation (R59, R60). -/
inductive HostWord where
  /-- A pattern. -/
  | literal (v : Word)
  /-- `@line.R0` or `@line.R1`. -/
  | result (line : Nat) (port : ResPort)
  /-- `@line.R0[hi:lo]` or `@line.R1[hi:lo]`, for any `hi` and `lo` (log entry 23). -/
  | slice (line : Nat) (port : ResPort) (hi lo : Nat)
deriving DecidableEq, Repr

/-- A K value in the notation (R59, R60). -/
inductive HostK where
  /-- `#k`. -/
  | literal (k : Nat)
  /-- `#(@line.R0[hi:lo] - minus)`. R60 does not say whether the `<int>` may be negative; any integer is
  taken (DESIGN CHOICE, log entry 24). -/
  | sliceMinus (line : Nat) (port : ResPort) (hi lo : Nat) (minus : Int)
deriving DecidableEq, Repr

/-- One line of a host program (R59). -/
inductive HostLine where
  /-- `ABS128 A=` -/
  | abs128 (a : HostWord)
  /-- `MUL128 A=, B=` -/
  | mul128 (a b : HostWord)
  /-- `DIV256 C=, A=, B=` -/
  | div256 (c a b : HostWord)
  /-- `POW10 #k` -/
  | pow10 (k : HostK)
  /-- `DIVIDE #k, A=, B=` -/
  | divide (k : HostK) (a b : HostWord)
  /-- `DIVTYPE A=, B=` -/
  | divtype (a b : HostWord)
  /-- `SUMTYPE A=` -/
  | sumtype (a : HostWord)
  /-- `AVGTYPE A=` -/
  | avgtype (a : HostWord)
deriving DecidableEq, Repr

/-- The response a reference names. A reference to a line that has no response yet, its own or a later one,
is refused, of which R60 does not speak (DESIGN CHOICE, log entry 25). A program has ended before a reference to a faulted line could be
evaluated (R60, R119). -/
def referTo (taken : List Response) (line : Nat) (port : ResPort) : Except Refusal Word :=
  match taken[line]? with
  | none => .error .badReference
  | some r =>
    match port with
    | .r0 => .ok r.res0
    | .r1 => .ok r.res1

/-- v[hi:lo] as an unsigned number (R9). Of a slice with hi < lo or hi > 127 the spec gives no value: it is 0
for hi < lo, and bits above 127 read as 0 (DESIGN CHOICE, log entry 23). -/
def sliceOf (v : Word) (hi lo : Nat) : Nat := (v.toNat >>> lo) % 2 ^ (hi + 1 - lo)

/-- The value of a port expression (R60). -/
def evalWord (taken : List Response) : HostWord → Except Refusal Word
  | .literal v => .ok v
  | .result line port => referTo taken line port
  | .slice line port hi lo =>
    match referTo taken line port with
    | .ok v => .ok (BitVec.ofNat 128 (sliceOf v hi lo))
    | .error e => .error e

/-- A K value must be in 0..255: a negative one cannot be encoded, a wider one must not be truncated
(R51). -/
def checkK (k : Int) : Except Refusal Nat :=
  if k < 0 then .error .negativeAdjustment
  else if 255 < k then .error .adjustmentTooWide
  else .ok k.toNat

/-- The value of a K expression (R60). -/
def evalK (taken : List Response) : HostK → Except Refusal Nat
  | .literal k => checkK k
  | .sliceMinus line port hi lo minus =>
    match referTo taken line port with
    | .ok v => checkK ((sliceOf v hi lo : Int) - minus)
    | .error e => .error e

/-- A command from its instruction and its three ports. -/
def commandOf (i : Instr) (a b c : Except Refusal Word) : Except Refusal Command :=
  match a, b, c with
  | .ok a, .ok b, .ok c => .ok { cmd := encode i, a := a, b := b, c := c }
  | .error e, _, _ => .error e
  | _, .error e, _ => .error e
  | _, _, .error e => .error e

/-- A command with a K expression. -/
def commandWithK (make : Nat → Instr) (k : Except Refusal Nat) (a b : Except Refusal Word) :
    Except Refusal Command :=
  match k with
  | .ok k => commandOf (make k) a b (.ok 0)
  | .error e => .error e

/-- The command a line encodes to once its references are evaluated; a port the line does not name is
driven with 0 (R59). -/
def encodeLine (taken : List Response) : HostLine → Except Refusal Command
  | .abs128 a => commandOf .abs128 (evalWord taken a) (.ok 0) (.ok 0)
  | .mul128 a b => commandOf .mul128 (evalWord taken a) (evalWord taken b) (.ok 0)
  | .div256 c a b => commandOf .div256 (evalWord taken a) (evalWord taken b) (evalWord taken c)
  | .pow10 k => commandWithK .pow10 (evalK taken k) (.ok 0) (.ok 0)
  | .divide k a b => commandWithK .divide (evalK taken k) (evalWord taken a) (evalWord taken b)
  | .divtype a b => commandOf .divtype (evalWord taken a) (evalWord taken b) (.ok 0)
  | .sumtype a => commandOf .sumtype (evalWord taken a) (.ok 0) (.ok 0)
  | .avgtype a => commandOf .avgtype (evalWord taken a) (.ok 0) (.ok 0)

/-- How a host program ends (R119, R125). -/
inductive ProgramEnd where
  /-- Every response was OK; the responses, and the unit Idle again. -/
  | finished (taken : List Response) (unit : State)
  /-- FAULTED at the first response whose STATUS is not OK: its line and code. -/
  | faulted (line : Nat) (status : Byte)
  /-- The host refused to issue the line. -/
  | refused (line : Nat) (why : Refusal)
  /-- The unit stopped at the line; no state does (R125). -/
  | stopped (line : Nat)
deriving DecidableEq, Repr

/-- Run the lines left over, with the responses taken so far (R60, R119). -/
def runLines (lines : List HostLine) (taken : List Response) (unit : State) : ProgramEnd :=
  match lines with
  | [] => .finished taken unit
  | line :: rest =>
    match encodeLine taken line with
    | .error why => .refused taken.length why
    | .ok c =>
      match edge (unit.presented c) with
      | .next t =>
        if t.resp.status = Status.ok.code then runLines rest (taken ++ [t.resp]) t.takeResponse
        else .faulted taken.length t.resp.status
      | .fault _ => .stopped taken.length
      | .refused _ => .stopped taken.length

/-- Run a host program on a unit (R60, R119) that the host has reset before its first command, as R127 and
R130(1) ask of it. -/
def runProgram (lines : List HostLine) (unit : State) : ProgramEnd := runLines lines [] unit

/-- A descriptor operand `(p,s)` of the notation (R59). -/
def descriptorWord (p s : Byte) : HostWord := .literal (packDescriptor p.toNat s.toNat)

/-- DECDIV at line n (R61): DIVTYPE, then DIVIDE with the adjustment from its RES1[7:0]. -/
def decdiv (n : Nat) (a : HostWord) (p1 s1 : Byte) (b : HostWord) (p2 s2 : Byte) : List HostLine :=
  [.divtype (descriptorWord p1 s1) (descriptorWord p2 s2), .divide (.sliceMinus n .r1 7 0 0) a b]

/-- AVGFIN at line n (R61): AVGTYPE, then DIVIDE of the sum by the count with the adjustment
RES0[15:8] - s. Refused for a zero count before any line is issued (log entry 16); a negative adjustment
is refused at the DIVIDE line by `checkK`. -/
def avgfin (n : Nat) (sum : HostWord) (p s : Byte) (count : BitVec 64) : Except Refusal (List HostLine) :=
  if count = 0 then .error .zeroCount
  else
    .ok
      [.avgtype (descriptorWord p s),
       .divide (.sliceMinus n .r0 15 8 s.toNat) sum (.literal (count.setWidth 128))]

end Sys2Proof.Machine
end

