-- ==== Sys2Proof/Machine/Instances.lean ====
section
/-! DEFINITION. A system of INSTANCES copies of TDK (R8, 00_scope.md; R122, 60_exceptions.md; R44,
20_memory.md): a list of states that share nothing, of which one at a time sees an edge, in whatever
order the caller chooses (log entry 15). -/

namespace Sys2Proof.Machine

/-- The default system: one instance, right after reset (R8). -/
def defaultSystem : List State := List.replicate Config.instancesDefault State.reset

/-- One rising edge at instance `i`; where there is no instance `i`, nothing happens. -/
def stepInstance (i : Nat) (system : List State) : Host.Outcome (List State) Fault Refusal :=
  match system[i]? with
  | none => .next system
  | some s =>
    match step s with
    | .next t => .next (system.set i t)
    | .fault r => .fault r
    | .refused r => .refused r

/-- Edges at the instances a schedule names, one after another, up to the first fault or refusal. -/
def runSchedule : List Nat → List State → Host.Outcome (List State) Fault Refusal
  | [], system => .next system
  | i :: rest, system =>
    match stepInstance i system with
    | .next next => runSchedule rest next
    | .fault r => .fault r
    | .refused r => .refused r

end Sys2Proof.Machine
end

