-- ==== Sys2Proof/Safety.lean ====
section
/-! DEFINITION. The terms the statements are written in: how a command ends, and the states a run keeps
to. -/

namespace Sys2Proof.Machine

/-- The unit after `n` edges, with whatever the host drives (R18 to R23). -/
def runEdges : Nat → State → Host.Outcome State Fault Refusal
  | 0, s => .next s
  | n + 1, s =>
    match step s with
    | .next t => runEdges n t
    | .fault r => .fault r
    | .refused r => .refused r

/-- The state after a command ended with status OK and these results: nothing but the phase and the
response holding register differs (R33, R105). -/
def State.endedOk (s : State) (res0 res1 : Word) : State :=
  { s with phase := .done, resp := { res0 := res0, res1 := res1, status := 0x00 } }

/-- A command ends with this non-OK code and with results the spec leaves unspecified (R33, R107): nothing
but the phase, the response holding register and the count of free values differs. -/
def EndsWithCode (s : State) (o : Host.Outcome State Fault Refusal) (code : Byte) : Prop :=
  ∃ res0 res1 n,
    o = .next { s with phase := .done, resp := { res0 := res0, res1 := res1, status := code }, drawn := n }

/-- An edge with RST = 1 has come since power was applied (R127). It holds at `State.reset`, and every step
keeps it. -/
abbrev HasBeenReset (s : State) : Prop := s.phase ≠ .powerUp

/-- The ROM holds its constants (R75, R76). -/
def RomIntact (s : State) : Prop := s.rom = pow10Rom

/-- A held response carries one of the eight codes (R105). -/
def StatusLegal (s : State) : Prop := s.phase = .done → s.resp.status.toNat ≤ 7

/-- A held response is one that completing the held command gives (R20, R25, R33). -/
def ResponseOfHeld (s : State) : Prop :=
  s.phase = .done →
    ∃ u t : State, u.held = s.held ∧ u.digitCheck = s.digitCheck ∧ u.rom = s.rom ∧
      completeEdge u = .next t ∧ t.resp = s.resp

/-- The invariant of the unit. -/
def Inv (s : State) : Prop := RomIntact s ∧ StatusLegal s ∧ ResponseOfHeld s

/-- Two states hold the same command and the same constants: all a response may depend on (R16, R33). -/
def SameCommand (s t : State) : Prop :=
  s.held = t.held ∧ s.digitCheck = t.digitCheck ∧ s.rom = t.rom

/-- Two outcomes carry the same response, results compared only where the status is OK (R33, R42). -/
def SameResponse (o p : Host.Outcome State Fault Refusal) : Prop :=
  ∃ s t : State, o = .next s ∧ p = .next t ∧ s.resp.status = t.resp.status ∧
    (s.resp.status = 0x00 → s.resp = t.resp)

/-- The port value packs the valid descriptor (p, s): p at [7:0], s at [15:8], zero above, and
s <= p <= 38 (R56). -/
def DescriptorIs (v : Word) (p s : Nat) : Prop := v.toNat = s * 256 + p ∧ s ≤ p ∧ p ≤ 38

/-- v[127:16] != 0, or v[7:0] > 38, or v[15:8] > v[7:0] (R112). -/
def InvalidDescriptor (v : Word) : Prop :=
  v.toNat / 65536 ≠ 0 ∨ 38 < v.toNat % 256 ∨ v.toNat % 256 < v.toNat / 256 % 256

end Sys2Proof.Machine
end

