-- ==== Sys2Proof/Certificates/Slice0/Obligations.lean ====
section
/-! DEFINITION. The statements for the provers. Each docstring names the rules of spec/ it rests on. An
equation `exec i s = .next (s.endedOk r0 r1)` is also the frame: `endedOk` changes the phase and the response
holding register and nothing else; TDK has no memory, so there is no memory to frame (R35). -/

open Sys2Proof Sys2Proof.Machine

/-! ### Encoding -/

/-- Decoding an encoded well-formed command gives it back (R48, R52, R53). -/
def Obligations.DecodeOfEncodeIsTheCommand : Prop :=
  ∀ i : Instr, i.wellFormed = true → decode (encode i) = .ok i

/-- Every legal word is the encoding of the well-formed command it decodes to, so no bit of it is dropped
(R52: decoding is total over all words; R54). -/
def Obligations.LegalWordIsTheEncodingOfItsCommand : Prop :=
  ∀ (w : CmdWord) (i : Instr), decode w = .ok i → i.wellFormed = true ∧ encode i = w

/-- R53: the opcode map, by match and mask, K read where it is used, and the reserved OPs. -/
def Obligations.OpcodeMapByMatchAndMask : Prop :=
  ∀ w : CmdWord,
    (decode w = .ok .abs128 ↔ w &&& 0xFFFFFFFF#32 = 0x00000001#32) ∧
    (decode w = .ok .mul128 ↔ w &&& 0xFFFFFFFF#32 = 0x00000002#32) ∧
    (decode w = .ok .div256 ↔ w &&& 0xFFFFFFFF#32 = 0x00000003#32) ∧
    (∀ k, decode w = .ok (.pow10 k) ↔ w &&& 0xFFFF00FF#32 = 0x00000004#32 ∧ k = w.toNat / 256 % 256) ∧
    (∀ k, decode w = .ok (.divide k) ↔ w &&& 0xFFFF00FF#32 = 0x00000005#32 ∧ k = w.toNat / 256 % 256) ∧
    (decode w = .ok .divtype ↔ w &&& 0xFFFFFFFF#32 = 0x00000006#32) ∧
    (decode w = .ok .sumtype ↔ w &&& 0xFFFFFFFF#32 = 0x00000007#32) ∧
    (decode w = .ok .avgtype ↔ w &&& 0xFFFFFFFF#32 = 0x00000008#32) ∧
    (w.toNat % 32 = 0 ∨ 9 ≤ w.toNat % 32 → ∃ why, decode w = .error why)

/-- R54: which words are illegal, and that each of them ends with status ILLEGAL and no other effect. -/
def Obligations.IllegalWordsAllEndIllegal : Prop :=
  (∀ w : CmdWord,
    (∃ why, decode w = .error why) ↔
      (w.toNat % 32 = 0 ∨ 9 ≤ w.toNat % 32 ∨ w.toNat / 32 % 8 ≠ 0 ∨ w.toNat / 65536 ≠ 0 ∨
        (w.toNat / 256 % 256 ≠ 0 ∧ w.toNat % 32 ≠ 4 ∧ w.toNat % 32 ≠ 5))) ∧
  (∃ why, decode 0#32 = .error why) ∧
  ∀ (s : State) (why : Illegal), decode s.held.cmd = .error why → EndsWithCode s (completeEdge s) 0x01

/-- The words R62 writes out decode to the commands it writes them for. -/
def Obligations.WorkedEncodingsDecode : Prop :=
  decodeTableWord 32 0x00000001 = some .abs128 ∧
  decodeTableWord 32 0x00000002 = some .mul128 ∧
  decodeTableWord 32 0x00000003 = some .div256 ∧
  decodeTableWord 32 0x00001304 = some (.pow10 19) ∧
  decodeTableWord 32 0x00000805 = some (.divide 8) ∧
  decodeTableWord 32 0x00000006 = some .divtype ∧
  decodeTableWord 32 0x00000007 = some .sumtype ∧
  decodeTableWord 32 0x00000008 = some .avgtype

/-! ### Steps, handshake and reset -/

/-- The completing edge runs exactly the decoded command on the state, and then the host's next levels
come (R32, R33, R52). The second clause says the same of the state `withFetchWord` builds; that this state
stands for a command captured from the ports, with its latency run out, RST = 0 and the word cut to 32 bits,
is the model's choice (log entry 13, DEDUCED from R32), not a rule of the spec. -/
def Obligations.StepRunsTheHeldCommand : Prop :=
  (∀ (s t : State) (i : Instr), s.pins.rst = false → s.phase = .busy 0 → decode s.held.cmd = .ok i →
    exec i s = .next t → step s = .next t.nextPins) ∧
  ∀ (s : State) (nbits w : Nat) (i : Instr), decodeTableWord nbits w = some i →
    step (s.withFetchWord nbits w) = afterEdge (exec i (s.withFetchWord nbits w))

/-- R111: an illegal word ends ILLEGAL at the completing edge whatever the operands are. -/
def Obligations.IllegalIsDecidedByTheWordAlone : Prop :=
  ∀ (s : State) (a b c : Word) (why : Illegal),
    s.pins.rst = false → s.phase = .busy 0 → decode s.held.cmd = .error why →
    ∃ res0 res1 n,
      step { s with held := { cmd := s.held.cmd, a := a, b := b, c := c } } =
        .next (State.nextPins
          { s with
            held := { cmd := s.held.cmd, a := a, b := b, c := c }
            phase := .done
            resp := { res0 := res0, res1 := res1, status := 0x01 }
            drawn := n })

/-- Every command completes and every edge has a next state: TDK has no stuck states (R125, R136). -/
def Obligations.EveryStepAnswersNext : Prop :=
  (∀ (i : Instr) (s : State), ∃ t, exec i s = .next t) ∧ ∀ s : State, ∃ t, step s = .next t

/-- Of a unit that has been reset: acceptance at an edge with REQ_VALID = REQ_READY = 1 and RST = 0
captures CMD, A, B and C (R19), and that the response holding register keeps the previous response there is
the model's choice (log entry 10, DESIGN CHOICE); no other edge with RST = 0 captures anything (R19), and that
the register also keeps its contents in Idle and at the edge that takes a response is the model's choice (log
entry 10, DESIGN CHOICE); after acceptance the ports CMD, A, B and C (and REQ_VALID and the levels to come) have no
effect on the command in flight (R19). That last clause also equates what the spec leaves unspecified, RES0
and RES1 of a command that faults and the holding registers after an RST edge, and the model's own counter;
there it rests on the model's choice that a free value is a function of the counter alone (log entries 4, 5
and 9, DESIGN CHOICE), not on R19. Before the first reset nothing is specified (R127). -/
def Obligations.AcceptanceCapturesThePorts : Prop :=
  (∀ s : State, HasBeenReset s → s.pins.reqValid = true → s.reqReady = true → s.pins.rst = false →
    ∃ wait, step s =
      .next (State.nextPins
        { s with
          phase := .busy wait
          held := { cmd := s.pins.cmd, a := s.pins.a, b := s.pins.b, c := s.pins.c } })) ∧
  (∀ s t : State, HasBeenReset s → s.pins.rst = false → ¬(s.pins.reqValid = true ∧ s.reqReady = true) →
    step s = .next t → t.held = s.held) ∧
  ∀ (s t : State) (p : Pins) (later : List Pins), s.inFlight = true →
    p.rst = s.pins.rst → p.rspReady = s.pins.rspReady → step s = .next t →
    ∃ u, step { s with pins := p, script := later } = .next u ∧
      u.phase = t.phase ∧ u.held = t.held ∧ u.resp = t.resp ∧ u.drawn = t.drawn

/-- A response is presented unchanged until an edge with RSP_READY = 1 takes it (R20, R23). That the
holding registers keep their contents at that edge, unseen, is the model's choice (log entry 10, DESIGN
CHOICE). -/
def Obligations.ResponseWaitsUntilTaken : Prop :=
  ∀ s : State, s.phase = .done → s.pins.rst = false →
    s.rspValid = true ∧
    (s.pins.rspReady = false → step s = .next s.nextPins) ∧
    (s.pins.rspReady = true →
      ∃ t, step s = .next t ∧ t.phase = .idle ∧ t.rspValid = false ∧
        t = State.nextPins { s with phase := .idle })

/-- Of a unit that has been reset: one command in flight at a time, REQ_READY low while it is, high when
none is and RST = 0; a command is in flight from its accepting edge to the edge that takes its response
(R19, R20, R21). That the captured command is still kept at the edge that takes the response is the model's
choice (log entry 10, DESIGN CHOICE). -/
def Obligations.OneCommandInFlight : Prop :=
  ∀ s : State, HasBeenReset s →
    (s.inFlight = true → s.reqReady = false) ∧
    (s.inFlight = false → s.pins.rst = false → s.reqReady = true) ∧
    (∀ t, s.pins.rst = false → step s = .next t → s.inFlight = true → t.held = s.held) ∧
    (∀ t, s.pins.rst = false → step s = .next t → s.inFlight = true →
      (t.inFlight = false ↔ s.rspValid = true ∧ s.pins.rspReady = true)) ∧
    (∀ t, s.pins.rst = false → step s = .next t → s.inFlight = false →
      (t.inFlight = true ↔ s.pins.reqValid = true))

/-- R20, R134, R136, with LATENCY an opaque function of the command (log entry 6): a command accepted from Idle gets its response at the LATENCY-th edge after the
accepting one, LATENCY is at least 1, no response shows before, and the response is that of the captured
command, for any values the host drives meanwhile as long as it keeps RST = 0. -/
def Obligations.ResponseComesAfterLatency : Prop :=
  ∀ s : State, s.phase = .idle → s.pins.rst = false → s.pins.reqValid = true →
    (∀ p ∈ s.script, p.rst = false) →
    1 ≤ latency (capturedCommand s.pins) ∧
    (∀ k, 1 ≤ k → k ≤ latency (capturedCommand s.pins) →
      ∃ t, runEdges k s = .next t ∧ t.rspValid = false ∧ t.reqReady = false) ∧
    ∃ t, runEdges (latency (capturedCommand s.pins) + 1) s = .next t ∧
      t.rspValid = true ∧ t.held = capturedCommand s.pins ∧
      SameResponse (.next t) (completeEdge { s with held := capturedCommand s.pins })

/-- R128: an edge with RST = 1 from every state, one before the first reset too. REQ_READY and RSP_VALID are
0 while RST = 1 but for the time before the first such edge, when R127 leaves them open. -/
def Obligations.ResetEdgeEntersIdle : Prop :=
  ∀ s : State, s.pins.rst = true →
    (HasBeenReset s → s.reqReady = false ∧ s.rspValid = false) ∧
    ∃ (held : Command) (resp : Response) (n : Nat) (t : State),
      step s = .next t ∧
      t = State.nextPins { s with phase := .idle, held := held, resp := resp, drawn := n } ∧
      t.phase = .idle ∧ t.inFlight = false ∧ t.rspValid = false ∧
      (t.pins.rst = false → t.reqReady = true) ∧ (t.pins.rst = true → t.reqReady = false) ∧
      t.rom = s.rom ∧ t.digitCheck = s.digitCheck

/-- R127: before the first edge with RST = 1 the result ports take unspecified values at every edge, and
REQ_READY and RSP_VALID are free levels; however long it lasts, only such an edge ends it, and no step
returns to it. That the open levels are the free values of Config, and that nothing is accepted meanwhile,
is the model's choice (log entry 14, DESIGN CHOICE). -/
def Obligations.PowerUpLastsUntilTheFirstReset : Prop :=
  (∀ (digitCheck : Bool) (p : Pins) (later : List Pins),
    ¬HasBeenReset (State.powerUp digitCheck p later) ∧ Inv (State.powerUp digitCheck p later)) ∧
  (∀ s : State, ¬HasBeenReset s →
    s.reqReady = Config.freeBit s.drawn ∧ s.rspValid = Config.freeBit (s.drawn + 1)) ∧
  (∀ s : State, ¬HasBeenReset s → s.pins.rst = false →
    ∃ (held : Command) (resp : Response) (n : Nat),
      step s = .next (State.nextPins { s with held := held, resp := resp, drawn := n })) ∧
  (∀ (n : Nat) (s : State), ¬HasBeenReset s → s.pins.rst = false → (∀ p ∈ s.script, p.rst = false) →
    ∃ t, runEdges n s = .next t ∧ ¬HasBeenReset t) ∧
  (∀ s t : State, s.pins.rst = true → step s = .next t → HasBeenReset t) ∧
  ∀ (n : Nat) (s t : State), HasBeenReset s → runEdges n s = .next t → HasBeenReset t

/-- R34: what reset leaves (of the holding registers: the host cannot read them), and what an edge with
RST = 1 leaves of a command in flight (none), of DIGIT_CHECK and of the ROM. -/
def Obligations.StateAfterReset : Prop :=
  State.reset.phase = .idle ∧ State.reset.inFlight = false ∧
  State.reset.reqReady = true ∧ State.reset.rspValid = false ∧
  (∀ i, i < 39 → ∃ v, State.reset.rom[i]? = some v ∧ v.toNat = 10 ^ i) ∧
  State.reset.readStatus = .fault .noResponse ∧
  State.reset.readRes0 = .fault .noResponse ∧ State.reset.readRes1 = .fault .noResponse ∧
  ∀ s t : State, s.pins.rst = true → step s = .next t →
    t.phase = .idle ∧ t.inFlight = false ∧ t.rspValid = false ∧ t.digitCheck = s.digitCheck ∧ t.rom = s.rom

/-- The host reads STATUS only while RSP_VALID = 1 and a result only of a response whose STATUS is OK
(R22(b), R33, R125). -/
def Obligations.HostReadsAreGated : Prop :=
  ∀ (s : State) (v : Word) (st : Byte),
    (s.readStatus = .next st ↔ s.rspValid = true ∧ st = s.resp.status) ∧
    (s.readRes0 = .next v ↔ s.rspValid = true ∧ s.resp.status = 0x00 ∧ v = s.resp.res0) ∧
    (s.readRes1 = .next v ↔ s.rspValid = true ∧ s.resp.status = 0x00 ∧ v = s.resp.res1)

/-! ### Invariants -/

/-- R75: the ROM holds its constants at reset with no step to initialise it, and is the same after every
step, whatever the command, the ports and RST; so is DIGIT_CHECK. -/
def Obligations.NoStepWritesTheRom : Prop :=
  RomIntact State.reset ∧
  ∀ s t : State, step s = .next t → t.rom = s.rom ∧ t.digitCheck = s.digitCheck

/-- The invariant of the unit is kept by every step: the ROM holds its constants, a held response carries one
of the eight codes and is a response of the held command (R20, R33, R75, R105). -/
def Obligations.StepKeepsTheInvariant : Prop :=
  ∀ s t : State, Inv s → step s = .next t → Inv t

/-- The invariant holds at reset, and the unit has been reset. -/
def Obligations.ResetMeetsTheInvariant : Prop := Inv State.reset ∧ HasBeenReset State.reset

/-- R113, with the "raised by" column of R105: which codes each command can end with. DIGIT_OVF is DIVIDE's
alone and only under DIGIT_CHECK = true. -/
def Obligations.StatusCodesByCommand : Prop :=
  ∀ (i : Instr) (s t : State), exec i s = .next t →
    t.resp.status.toNat ≤ 7 ∧ t.resp.status ≠ 0x01 ∧
    (t.resp.status = 0x02 → i = .div256 ∨ ∃ k, i = .divide k) ∧
    (t.resp.status = 0x03 → (∃ k, i = .pow10 k) ∨ ∃ k, i = .divide k) ∧
    (t.resp.status = 0x04 → i = .div256) ∧
    (t.resp.status = 0x05 → ∃ k, i = .divide k) ∧
    (t.resp.status = 0x06 → (∃ k, i = .divide k) ∧ s.digitCheck = true) ∧
    (t.resp.status = 0x07 → i = .divtype ∨ i = .sumtype ∨ i = .avgtype)

/-- The one-result commands leave 0 in RES1 when they end OK (R50). -/
def Obligations.OneResultCommandsClearRes1 : Prop :=
  ∀ (i : Instr) (s t : State), i ≠ .mul128 → i ≠ .div256 → i ≠ .divtype →
    exec i s = .next t → t.resp.status = 0x00 → t.resp.res1 = 0

/-! ### Statelessness and independence -/

/-- A response depends on the captured command, DIGIT_CHECK and the ROM and on nothing else (R16, R33,
R42, R126). -/
def Obligations.ResponseDependsOnTheCommandAlone : Prop :=
  ∀ (i : Instr) (s t : State), SameCommand s t → SameResponse (exec i s) (exec i t)

/-- The ports a command does not read have no effect on its response (R49). -/
def Obligations.UnreadPortsAreIgnored : Prop :=
  ∀ (s : State) (a b c : Word) (k : Nat),
    SameResponse (exec .abs128 s) (exec .abs128 { s with held := { s.held with b := b, c := c } }) ∧
    SameResponse (exec .mul128 s) (exec .mul128 { s with held := { s.held with c := c } }) ∧
    SameResponse (exec (.pow10 k) s)
      (exec (.pow10 k) { s with held := { s.held with a := a, b := b, c := c } }) ∧
    SameResponse (exec (.divide k) s) (exec (.divide k) { s with held := { s.held with c := c } }) ∧
    SameResponse (exec .divtype s) (exec .divtype { s with held := { s.held with c := c } }) ∧
    SameResponse (exec .sumtype s) (exec .sumtype { s with held := { s.held with b := b, c := c } }) ∧
    SameResponse (exec .avgtype s) (exec .avgtype { s with held := { s.held with b := b, c := c } })

/-- R108: after the response of a faulting command (an illegal word among them) is taken, the next command's
response is what it would have been without it. That the command holding register keeps its contents when
the response is taken is the model's choice (log entry 10, DESIGN CHOICE). -/
def Obligations.FaultLeavesNoTrace : Prop :=
  ∀ (s t : State) (c : Command), completeEdge s = .next t → t.resp.status ≠ 0x00 →
    t.takeResponse.pins = s.pins ∧ t.takeResponse.held = s.held ∧ t.takeResponse.phase = .idle ∧
    t.takeResponse.rom = s.rom ∧ t.takeResponse.digitCheck = s.digitCheck ∧
    SameResponse (completeEdge (t.takeResponse.presented c)) (completeEdge (s.presented c))

/-- Instances share nothing: any two orders of the same edges at the instances of a system give the same
states (R44, R122). That a system is a list of States stepped by a schedule is the model's choice (log entry
15, DESIGN CHOICE). The states are equated whole, the unspecified values, the waiting counts and the counter
among them; there it rests on the model's choice that a free value is a function of the counter and LATENCY
one of the command (log entries 4, 5, 6, 9, 10 and 14, DESIGN CHOICE), not on R44. -/
def Obligations.InstancesInterleaveFreely : Prop :=
  ∀ (order other : List Nat) (system : List State), order.Perm other →
    runSchedule order system = runSchedule other system

/-! ### WideInt -/

/-- R63, and R64's unsigned form. -/
def Obligations.Abs128GivesTheMagnitude : Prop :=
  (∀ w : CmdWord, decode w = .ok .abs128 ↔ w &&& 0xFFFFFFFF#32 = 0x00000001#32) ∧
  ∀ s : State,
    exec .abs128 s = .next (s.endedOk (BitVec.ofInt 128 |s.held.a.toInt|) 0) ∧
    ((BitVec.ofInt 128 |s.held.a.toInt|).toNat : Int) = |s.held.a.toInt| ∧
    (s.held.a.msb = false → BitVec.ofInt 128 |s.held.a.toInt| = s.held.a) ∧
    (s.held.a.msb = true →
      (BitVec.ofInt 128 |s.held.a.toInt|).toNat = (2 ^ 128 - s.held.a.toNat) % 2 ^ 128)

/-- R65, R66: the limb view is lossless both ways, carries the value, and preserves sign and zero. -/
def Obligations.LimbViewIsLossless : Prop :=
  ∀ (v : Word) (l : Limbs),
    (toLimbs v).lower = v.extractLsb' 0 64 ∧ (toLimbs v).upper = v.extractLsb' 64 64 ∧
    fromLimbs (toLimbs v) = v ∧ toLimbs (fromLimbs l) = l ∧
    (toLimbs v).upper.toInt * 2 ^ 64 + (toLimbs v).lower.toNat = v.toInt ∧
    (v.toInt < 0 ↔ (toLimbs v).upper.toInt < 0) ∧
    (v.toInt = 0 ↔ (toLimbs v).upper.toInt = 0 ∧ (toLimbs v).lower.toNat = 0)

/-- The little-endian byte view: byte j is v[8j+7:8j], and the bytes give the value back (R38). -/
def Obligations.ByteViewIsLossless : Prop :=
  ∀ v : Word, (toBytes v).length = 16 ∧ fromBytes (toBytes v) = v ∧
    ∀ j, j < 16 → (toBytes v)[j]? = some (v.extractLsb' (8 * j) 8)

/-! ### Wide256 -/

/-- R67: the exact product. -/
def Obligations.Mul128GivesTheExactProduct : Prop :=
  (∀ w : CmdWord, decode w = .ok .mul128 ↔ w &&& 0xFFFFFFFF#32 = 0x00000002#32) ∧
  ∀ s : State, ∃ lo hi : Word,
    exec .mul128 s = .next (s.endedOk lo hi) ∧
    hi.toNat * 2 ^ 128 + lo.toNat = s.held.a.toNat * s.held.b.toNat

/-- MUL128 is commutative, and its largest product is below 2^256 (R69). -/
def Obligations.Mul128CommutesWithoutWrapping : Prop :=
  (∀ s : State, SameResponse (exec .mul128 s)
    (exec .mul128 { s with held := { s.held with a := s.held.b, b := s.held.a } })) ∧
  (2 ^ 128 - 1) ^ 2 = 2 ^ 256 - 2 ^ 129 + 1 ∧ ∀ a b : Word, a.toNat * b.toNat ≤ (2 ^ 128 - 1) ^ 2

/-- The schoolbook multiply of R68, with its modular sums and compared carries, is the exact product. -/
def Obligations.SchoolbookMultiplyIsExact : Prop :=
  ∀ a b : Word, uint256Value (mulSchoolbook a b) = a.toNat * b.toNat ∧ mulSchoolbook a b = mul128 a b

/-- R70, R71: quotient and remainder, and the two faults in their order. -/
def Obligations.Div256DividesExactly : Prop :=
  (∀ w : CmdWord, decode w = .ok .div256 ↔ w &&& 0xFFFFFFFF#32 = 0x00000003#32) ∧
  ∀ s : State,
    (s.held.b.toNat = 0 → EndsWithCode s (exec .div256 s) 0x02) ∧
    (s.held.b.toNat ≠ 0 → s.held.b.toNat ≤ s.held.c.toNat → EndsWithCode s (exec .div256 s) 0x04) ∧
    (s.held.c.toNat < s.held.b.toNat →
      ∃ q r : Word, exec .div256 s = .next (s.endedOk q r) ∧
        s.held.c.toNat * 2 ^ 128 + s.held.a.toNat = q.toNat * s.held.b.toNat + r.toNat ∧
        r.toNat < s.held.b.toNat) ∧
    (s.held.b.toNat ≠ 0 →
      ((s.held.c.toNat * 2 ^ 128 + s.held.a.toNat) / s.held.b.toNat < 2 ^ 128 ↔
        s.held.c.toNat < s.held.b.toNat))

/-- The binary long division of R72 gives the exact quotient and remainder on every legal operand. -/
def Obligations.LongDivisionIsExact : Prop :=
  ∀ (num : UInt256) (den : Word), 0 < den.toNat → num.hi.toNat < den.toNat →
    longDivide num den = (uint256Value num / den.toNat, uint256Value num % den.toNat) ∧
    (longDivide num den).1 < 2 ^ 128 ∧
    divResult num den =
      .finish (BitVec.ofNat 128 (longDivide num den).1) (BitVec.ofNat 128 (longDivide num den).2)

/-- MUL128 then DIV256 by the first factor gives the second factor back, for every nonzero first factor
(R73(b)). -/
def Obligations.MulThenDivRoundTrip : Prop :=
  ∀ s : State, s.held.a.toNat ≠ 0 →
    ∃ lo hi : Word, exec .mul128 s = .next (s.endedOk lo hi) ∧
      ∀ u : State, u.held.c = hi → u.held.a = lo → u.held.b = s.held.a →
        exec .div256 u = .next (u.endedOk s.held.b 0)

/-! ### Pow10Table -/

/-- R79: the table laws. -/
def Obligations.Pow10TableLaws : Prop :=
  (∀ n, 1 ≤ n → n ≤ 38 → ∃ v w : Word, romRead pow10Rom n = some v ∧ romRead pow10Rom (n - 1) = some w ∧
    v.toNat = w.toNat * 10 ∧ w.toNat * 10 < 2 ^ 128) ∧
  romRead pow10Rom 0 = some 1#128 ∧
  romRead pow10Rom 19 = some 10000000000000000000#128 ∧
  romRead pow10Rom 38 = some (BitVec.ofNat 128 (10 ^ 38)) ∧
  10 ^ 38 = 99999999999999999999999999999999999999 + 1

/-- R77: the ROM entry for K in 0..38, POW10_RANGE above. -/
def Obligations.Pow10ReadsTheRom : Prop :=
  (∀ (w : CmdWord) (k : Nat),
    decode w = .ok (.pow10 k) ↔ w &&& 0xFFFF00FF#32 = 0x00000004#32 ∧ k = w.toNat / 256 % 256) ∧
  ∀ (s : State) (k : Nat), RomIntact s →
    (k ≤ 38 → exec (.pow10 k) s = .next (s.endedOk (BitVec.ofNat 128 (10 ^ k)) 0) ∧
      (BitVec.ofNat 128 (10 ^ k)).toNat = 10 ^ k) ∧
    (38 < k → EndsWithCode s (exec (.pow10 k) s) 0x03)

/-! ### DecimalDivide -/

/-- The increment form of HALF_UP equals its closed form, and rounds to within half a unit (R83). -/
def Obligations.RoundHalfUpClosedForm : Prop :=
  ∀ n d : Nat, 0 < d →
    roundHalfUp (n / d) (n % d) d = (2 * n + d) / (2 * d) ∧
    2 * (roundHalfUp (n / d) (n % d) d * d) ≤ 2 * n + d ∧
    2 * n < 2 * (roundHalfUp (n / d) (n % d) d * d) + d

/-- R84 and R92: every outcome of DIVIDE, the checks in their order, with the result in the closed form
of R92. `q` is the rounded magnitude and `res` the signed result. K = 0 uses no ROM entry. -/
def Obligations.DivideOutcomes : Prop :=
  (∀ (w : CmdWord) (k : Nat),
    decode w = .ok (.divide k) ↔ w &&& 0xFFFF00FF#32 = 0x00000005#32 ∧ k = w.toNat / 256 % 256) ∧
  ∀ (s : State) (k q : Nat) (res : Int), (k ≠ 0 → RomIntact s) →
    q = (2 * (s.held.a.toInt.natAbs * 10 ^ k) + s.held.b.toInt.natAbs) / (2 * s.held.b.toInt.natAbs) →
    res = (if (s.held.a.toInt < 0) = (s.held.b.toInt < 0) then (q : Int) else -(q : Int)) →
    (s.held.b.toInt = 0 → EndsWithCode s (exec (.divide k) s) 0x02) ∧
    (s.held.b.toInt ≠ 0 → 38 < k → EndsWithCode s (exec (.divide k) s) 0x03) ∧
    (s.held.b.toInt ≠ 0 → k ≤ 38 → s.digitCheck = true →
      10 ^ 38 ≤ s.held.a.toInt.natAbs ∨ 10 ^ 38 ≤ s.held.b.toInt.natAbs →
      EndsWithCode s (exec (.divide k) s) 0x06) ∧
    (s.held.b.toInt ≠ 0 → k ≤ 38 →
      (s.digitCheck = true → s.held.a.toInt.natAbs < 10 ^ 38 ∧ s.held.b.toInt.natAbs < 10 ^ 38) →
      (res < -2 ^ 127 ∨ 2 ^ 127 - 1 < res → EndsWithCode s (exec (.divide k) s) 0x05) ∧
      (-2 ^ 127 ≤ res → res ≤ 2 ^ 127 - 1 → s.digitCheck = true → 10 ^ 38 ≤ q →
        EndsWithCode s (exec (.divide k) s) 0x06) ∧
      (-2 ^ 127 ≤ res → res ≤ 2 ^ 127 - 1 → (s.digitCheck = true → q < 10 ^ 38) →
        exec (.divide k) s = .next (s.endedOk (BitVec.ofInt 128 res) 0) ∧
        (BitVec.ofInt 128 res).toInt = res))

/-- The sign law, where it holds: both operands other than -2^127 and a rounded magnitude other than 2^127
(R93). -/
def Obligations.DivideSignLaw : Prop :=
  ∀ (s : State) (k : Nat), RomIntact s →
    s.held.a.toInt ≠ -2 ^ 127 → s.held.b.toInt ≠ -2 ^ 127 →
    (2 * (s.held.a.toInt.natAbs * 10 ^ k) + s.held.b.toInt.natAbs) / (2 * s.held.b.toInt.natAbs) ≠ 2 ^ 127 →
    ∃ t tA tB tAB : State,
      exec (.divide k) s = .next t ∧
      exec (.divide k) { s with held := { s.held with a := -s.held.a } } = .next tA ∧
      exec (.divide k) { s with held := { s.held with b := -s.held.b } } = .next tB ∧
      exec (.divide k) { s with held := { s.held with a := -s.held.a, b := -s.held.b } } = .next tAB ∧
      tA.resp.status = t.resp.status ∧ tB.resp.status = t.resp.status ∧ tAB.resp.status = t.resp.status ∧
      (t.resp.status = 0x00 →
        tA.resp.res0 = -t.resp.res0 ∧ tB.resp.res0 = -t.resp.res0 ∧ tAB.resp.res0 = t.resp.res0)

/-- DIVIDE computed by the document's fast and slow paths ends as DIVIDE does, for every operand, K, ROM
and DIGIT_CHECK; the slow path's precondition fails exactly when the quotient is 2^128 or more (R87, R94). -/
def Obligations.TwoPathDivideIsExact : Prop :=
  (∀ (digitCheck : Bool) (rom : Vector Word 39) (k : Nat) (a b : Word),
    divideByPaths digitCheck rom k a b = divideResult digitCheck rom k a b) ∧
  ∀ (a b pow : Word) (k : Nat), b.toInt ≠ 0 →
    (twoPathQuotient a b k pow = none ↔
      2 ^ 128 ≤ scaledDividend (magnitude a) k pow ∧
      2 ^ 128 ≤ scaledDividend (magnitude a) k pow / magnitude b)

/-! ### PrecisionRules -/

/-- R95: the result type and the scale adjustment, and TYPE_RANGE for an invalid descriptor. -/
def Obligations.DivtypeGivesTypeAndAdjustment : Prop :=
  (∀ w : CmdWord, decode w = .ok .divtype ↔ w &&& 0xFFFFFFFF#32 = 0x00000006#32) ∧
  (∀ s : State, InvalidDescriptor s.held.a ∨ InvalidDescriptor s.held.b →
    EndsWithCode s (exec .divtype s) 0x07) ∧
  ∀ (s : State) (p1 s1 p2 s2 rs0 rp0 rs rp : Nat),
    DescriptorIs s.held.a p1 s1 → DescriptorIs s.held.b p2 s2 →
    rs0 = max 6 (s1 + p2 + 1) → rp0 = (p1 - s1) + s2 + rs0 →
    (rp0 ≤ 38 → rs = rs0 ∧ rp = rp0) →
    (38 < rp0 → rp = 38 ∧
      (rp0 - rs0 < 38 → rs = max (38 - (rp0 - rs0)) (min rs0 6)) ∧
      (38 ≤ rp0 - rs0 → rs = min rs0 6)) →
    exec .divtype s =
      .next (s.endedOk (BitVec.ofNat 128 (rs * 256 + rp)) (BitVec.ofInt 128 ((rs : Int) - s1 + s2)))

/-- DIVTYPE's adjustment is never negative and at most 44 (R96). -/
def Obligations.DivtypeAdjustmentRange : Prop :=
  (∀ d1 d2 : Descriptor, d1.scale ≤ d1.precision → d1.precision ≤ 38 →
    d2.scale ≤ d2.precision → d2.precision ≤ 38 →
    0 ≤ scaleAdjustment d1 d2 ∧ scaleAdjustment d1 d2 ≤ 44) ∧
  scaleAdjustment ⟨38, 38⟩ ⟨1, 0⟩ = 0 ∧ scaleAdjustment ⟨0, 0⟩ ⟨33, 33⟩ = 39 ∧
  scaleAdjustment ⟨0, 0⟩ ⟨38, 38⟩ = 44 ∧ scaleAdjustment ⟨1, 0⟩ ⟨38, 38⟩ = 44 ∧
  ∀ s t : State, exec .divtype s = .next t → t.resp.status = 0x00 → t.resp.res1.toNat ≤ 44

/-- R99: the type of a sum, and TYPE_RANGE for an invalid descriptor. -/
def Obligations.SumtypeGivesTheSumType : Prop :=
  (∀ w : CmdWord, decode w = .ok .sumtype ↔ w &&& 0xFFFFFFFF#32 = 0x00000007#32) ∧
  (∀ s : State, InvalidDescriptor s.held.a → EndsWithCode s (exec .sumtype s) 0x07) ∧
  ∀ (s : State) (p sc : Nat), DescriptorIs s.held.a p sc →
    exec .sumtype s = .next (s.endedOk (BitVec.ofNat 128 (sc * 256 + min (p + 10) 38)) 0)

/-- R101: the type of an average, and TYPE_RANGE for an invalid descriptor. -/
def Obligations.AvgtypeGivesTheAverageType : Prop :=
  (∀ w : CmdWord, decode w = .ok .avgtype ↔ w &&& 0xFFFFFFFF#32 = 0x00000008#32) ∧
  (∀ s : State, InvalidDescriptor s.held.a → EndsWithCode s (exec .avgtype s) 0x07) ∧
  ∀ (s : State) (p sc rp rs : Nat), DescriptorIs s.held.a p sc →
    rp = min (p + 4) 38 → rs = min (min (sc + 4) 18) rp →
    exec .avgtype s = .next (s.endedOk (BitVec.ofNat 128 (rs * 256 + rp)) 0)

/-- R102 and R103: the average's last cap changes no result, and its adjustment rs - s is negative exactly
from scale 19 on, where rs is 18. -/
def Obligations.AverageCapAndAdjustment : Prop :=
  ∀ d : Descriptor, d.scale ≤ d.precision → d.precision ≤ 38 →
    (avgType d).scale = min (d.scale + 4) 18 ∧ (avgType d).scale ≤ (avgType d).precision ∧
    (((avgType d).scale : Int) - d.scale < 0 ↔ 19 ≤ d.scale) ∧
    (19 ≤ d.scale → (avgType d).scale = 18)

/-- R57, R98: every descriptor a type command writes is valid and packed as operands are, so it can be fed
back unchanged. -/
def Obligations.ResultDescriptorsAreValid : Prop :=
  ∀ (i : Instr) (s t : State), i = .divtype ∨ i = .sumtype ∨ i = .avgtype →
    exec i s = .next t → t.resp.status = 0x00 →
    ∃ p sc, DescriptorIs t.resp.res0 p sc ∧ readDescriptor t.resp.res0 = some { precision := p, scale := sc }

/-- R112: TYPE_RANGE is raised exactly for an invalid descriptor on a port the command reads. -/
def Obligations.TypeRangeExactlyForInvalidDescriptors : Prop :=
  ∀ s : State,
    (EndsWithCode s (exec .divtype s) 0x07 ↔ InvalidDescriptor s.held.a ∨ InvalidDescriptor s.held.b) ∧
    (EndsWithCode s (exec .sumtype s) 0x07 ↔ InvalidDescriptor s.held.a) ∧
    (EndsWithCode s (exec .avgtype s) 0x07 ↔ InvalidDescriptor s.held.a)
end

