-- ==== Sys2Proof/Laws/State.lean ====
section
/-! SUPPORT. One lemma per field per update of State, so that no proof unfolds a record update. Facts about
the handshake outputs and the host's next levels stand here too. -/

namespace Sys2Proof.Machine

@[simp] theorem State.accept_pins (s : State) : (s.accept).pins = s.pins := rfl
@[simp] theorem State.accept_script (s : State) : (s.accept).script = s.script := rfl
@[simp] theorem State.accept_phase (s : State) : (s.accept).phase = .busy (latency (capturedCommand s.pins) - 1) := rfl
@[simp] theorem State.accept_held (s : State) : (s.accept).held = capturedCommand s.pins := rfl
@[simp] theorem State.accept_resp (s : State) : (s.accept).resp = s.resp := rfl
@[simp] theorem State.accept_digitCheck (s : State) : (s.accept).digitCheck = s.digitCheck := rfl
@[simp] theorem State.accept_rom (s : State) : (s.accept).rom = s.rom := rfl
@[simp] theorem State.accept_drawn (s : State) : (s.accept).drawn = s.drawn := rfl

@[simp] theorem State.waitOn_pins (s : State) (wait : Nat) : (s.waitOn wait).pins = s.pins := rfl
@[simp] theorem State.waitOn_script (s : State) (wait : Nat) : (s.waitOn wait).script = s.script := rfl
@[simp] theorem State.waitOn_phase (s : State) (wait : Nat) : (s.waitOn wait).phase = .busy wait := rfl
@[simp] theorem State.waitOn_held (s : State) (wait : Nat) : (s.waitOn wait).held = s.held := rfl
@[simp] theorem State.waitOn_resp (s : State) (wait : Nat) : (s.waitOn wait).resp = s.resp := rfl
@[simp] theorem State.waitOn_digitCheck (s : State) (wait : Nat) : (s.waitOn wait).digitCheck = s.digitCheck := rfl
@[simp] theorem State.waitOn_rom (s : State) (wait : Nat) : (s.waitOn wait).rom = s.rom := rfl
@[simp] theorem State.waitOn_drawn (s : State) (wait : Nat) : (s.waitOn wait).drawn = s.drawn := rfl

@[simp] theorem State.finish_pins (s : State) (res0 res1 : Word) : (s.finish res0 res1).pins = s.pins := rfl
@[simp] theorem State.finish_script (s : State) (res0 res1 : Word) : (s.finish res0 res1).script = s.script := rfl
@[simp] theorem State.finish_phase (s : State) (res0 res1 : Word) : (s.finish res0 res1).phase = .done := rfl
@[simp] theorem State.finish_held (s : State) (res0 res1 : Word) : (s.finish res0 res1).held = s.held := rfl
@[simp] theorem State.finish_resp (s : State) (res0 res1 : Word) : (s.finish res0 res1).resp = { res0 := res0, res1 := res1, status := Status.ok.code } := rfl
@[simp] theorem State.finish_digitCheck (s : State) (res0 res1 : Word) : (s.finish res0 res1).digitCheck = s.digitCheck := rfl
@[simp] theorem State.finish_rom (s : State) (res0 res1 : Word) : (s.finish res0 res1).rom = s.rom := rfl
@[simp] theorem State.finish_drawn (s : State) (res0 res1 : Word) : (s.finish res0 res1).drawn = s.drawn := rfl

@[simp] theorem State.raise_pins (s : State) (f : FaultStatus) : (s.raise f).pins = s.pins := rfl
@[simp] theorem State.raise_script (s : State) (f : FaultStatus) : (s.raise f).script = s.script := rfl
@[simp] theorem State.raise_phase (s : State) (f : FaultStatus) : (s.raise f).phase = .done := rfl
@[simp] theorem State.raise_held (s : State) (f : FaultStatus) : (s.raise f).held = s.held := rfl
@[simp] theorem State.raise_resp (s : State) (f : FaultStatus) : (s.raise f).resp = { res0 := Config.freeWord s.drawn, res1 := Config.freeWord (s.drawn + 1), status := (Status.fault f).code } := rfl
@[simp] theorem State.raise_digitCheck (s : State) (f : FaultStatus) : (s.raise f).digitCheck = s.digitCheck := rfl
@[simp] theorem State.raise_rom (s : State) (f : FaultStatus) : (s.raise f).rom = s.rom := rfl
@[simp] theorem State.raise_drawn (s : State) (f : FaultStatus) : (s.raise f).drawn = s.drawn + 2 := rfl

@[simp] theorem State.takeResponse_pins (s : State) : (s.takeResponse).pins = s.pins := rfl
@[simp] theorem State.takeResponse_script (s : State) : (s.takeResponse).script = s.script := rfl
@[simp] theorem State.takeResponse_phase (s : State) : (s.takeResponse).phase = .idle := rfl
@[simp] theorem State.takeResponse_held (s : State) : (s.takeResponse).held = s.held := rfl
@[simp] theorem State.takeResponse_resp (s : State) : (s.takeResponse).resp = s.resp := rfl
@[simp] theorem State.takeResponse_digitCheck (s : State) : (s.takeResponse).digitCheck = s.digitCheck := rfl
@[simp] theorem State.takeResponse_rom (s : State) : (s.takeResponse).rom = s.rom := rfl
@[simp] theorem State.takeResponse_drawn (s : State) : (s.takeResponse).drawn = s.drawn := rfl

@[simp] theorem State.presented_pins (s : State) (c : Command) : (s.presented c).pins = { s.pins with rst := false } := rfl
@[simp] theorem State.presented_script (s : State) (c : Command) : (s.presented c).script = s.script := rfl
@[simp] theorem State.presented_phase (s : State) (c : Command) : (s.presented c).phase = .busy 0 := rfl
@[simp] theorem State.presented_held (s : State) (c : Command) : (s.presented c).held = c := rfl
@[simp] theorem State.presented_resp (s : State) (c : Command) : (s.presented c).resp = s.resp := rfl
@[simp] theorem State.presented_digitCheck (s : State) (c : Command) : (s.presented c).digitCheck = s.digitCheck := rfl
@[simp] theorem State.presented_rom (s : State) (c : Command) : (s.presented c).rom = s.rom := rfl
@[simp] theorem State.presented_drawn (s : State) (c : Command) : (s.presented c).drawn = s.drawn := rfl

@[simp] theorem State.endedOk_pins (s : State) (res0 res1 : Word) : (s.endedOk res0 res1).pins = s.pins := rfl
@[simp] theorem State.endedOk_script (s : State) (res0 res1 : Word) : (s.endedOk res0 res1).script = s.script := rfl
@[simp] theorem State.endedOk_phase (s : State) (res0 res1 : Word) : (s.endedOk res0 res1).phase = .done := rfl
@[simp] theorem State.endedOk_held (s : State) (res0 res1 : Word) : (s.endedOk res0 res1).held = s.held := rfl
@[simp] theorem State.endedOk_resp (s : State) (res0 res1 : Word) : (s.endedOk res0 res1).resp = { res0 := res0, res1 := res1, status := 0x00 } := rfl
@[simp] theorem State.endedOk_digitCheck (s : State) (res0 res1 : Word) : (s.endedOk res0 res1).digitCheck = s.digitCheck := rfl
@[simp] theorem State.endedOk_rom (s : State) (res0 res1 : Word) : (s.endedOk res0 res1).rom = s.rom := rfl
@[simp] theorem State.endedOk_drawn (s : State) (res0 res1 : Word) : (s.endedOk res0 res1).drawn = s.drawn := rfl

@[simp] theorem State.withFreeRegisters_pins (s : State) : s.withFreeRegisters.pins = s.pins := rfl
@[simp] theorem State.withFreeRegisters_script (s : State) : s.withFreeRegisters.script = s.script := rfl
@[simp] theorem State.withFreeRegisters_phase (s : State) : s.withFreeRegisters.phase = s.phase := rfl
@[simp] theorem State.withFreeRegisters_digitCheck (s : State) : s.withFreeRegisters.digitCheck = s.digitCheck := rfl
@[simp] theorem State.withFreeRegisters_rom (s : State) : s.withFreeRegisters.rom = s.rom := rfl
@[simp] theorem State.withFreeRegisters_drawn (s : State) : s.withFreeRegisters.drawn = s.drawn + 5 := rfl
@[simp] theorem State.withFreeRegisters_held (s : State) :
    s.withFreeRegisters.held =
      { cmd := Config.freeCmd s.drawn
        a := Config.freeWord s.drawn
        b := Config.freeWord (s.drawn + 1)
        c := Config.freeWord (s.drawn + 2) } := rfl
@[simp] theorem State.withFreeRegisters_resp (s : State) :
    s.withFreeRegisters.resp =
      { res0 := Config.freeWord (s.drawn + 3)
        res1 := Config.freeWord (s.drawn + 4)
        status := Config.freeStatus s.drawn } := rfl

@[simp] theorem State.resetEdge_pins (s : State) : s.resetEdge.pins = s.pins := rfl
@[simp] theorem State.resetEdge_script (s : State) : s.resetEdge.script = s.script := rfl
@[simp] theorem State.resetEdge_phase (s : State) : s.resetEdge.phase = .idle := rfl
@[simp] theorem State.resetEdge_digitCheck (s : State) : s.resetEdge.digitCheck = s.digitCheck := rfl
@[simp] theorem State.resetEdge_rom (s : State) : s.resetEdge.rom = s.rom := rfl
@[simp] theorem State.resetEdge_drawn (s : State) : s.resetEdge.drawn = s.drawn + 5 := rfl

@[simp] theorem State.resetEdge_held (s : State) :
    s.resetEdge.held =
      { cmd := Config.freeCmd s.drawn
        a := Config.freeWord s.drawn
        b := Config.freeWord (s.drawn + 1)
        c := Config.freeWord (s.drawn + 2) } := rfl
@[simp] theorem State.resetEdge_resp (s : State) :
    s.resetEdge.resp =
      { res0 := Config.freeWord (s.drawn + 3)
        res1 := Config.freeWord (s.drawn + 4)
        status := Config.freeStatus s.drawn } := rfl

@[simp] theorem State.powerUpEdge_pins (s : State) : s.powerUpEdge.pins = s.pins := rfl
@[simp] theorem State.powerUpEdge_script (s : State) : s.powerUpEdge.script = s.script := rfl
@[simp] theorem State.powerUpEdge_phase (s : State) : s.powerUpEdge.phase = s.phase := rfl
@[simp] theorem State.powerUpEdge_digitCheck (s : State) : s.powerUpEdge.digitCheck = s.digitCheck := rfl
@[simp] theorem State.powerUpEdge_rom (s : State) : s.powerUpEdge.rom = s.rom := rfl
@[simp] theorem State.powerUpEdge_drawn (s : State) : s.powerUpEdge.drawn = s.drawn + 5 := rfl

@[simp] theorem State.powerUpEdge_held (s : State) :
    s.powerUpEdge.held =
      { cmd := Config.freeCmd s.drawn
        a := Config.freeWord s.drawn
        b := Config.freeWord (s.drawn + 1)
        c := Config.freeWord (s.drawn + 2) } := rfl
@[simp] theorem State.powerUpEdge_resp (s : State) :
    s.powerUpEdge.resp =
      { res0 := Config.freeWord (s.drawn + 3)
        res1 := Config.freeWord (s.drawn + 4)
        status := Config.freeStatus s.drawn } := rfl

@[simp] theorem State.nextPins_phase (s : State) : s.nextPins.phase = s.phase := by
  unfold State.nextPins; split <;> rfl

@[simp] theorem State.nextPins_held (s : State) : s.nextPins.held = s.held := by
  unfold State.nextPins; split <;> rfl

@[simp] theorem State.nextPins_resp (s : State) : s.nextPins.resp = s.resp := by
  unfold State.nextPins; split <;> rfl

@[simp] theorem State.nextPins_digitCheck (s : State) : s.nextPins.digitCheck = s.digitCheck := by
  unfold State.nextPins; split <;> rfl

@[simp] theorem State.nextPins_rom (s : State) : s.nextPins.rom = s.rom := by
  unfold State.nextPins; split <;> rfl

@[simp] theorem State.nextPins_drawn (s : State) : s.nextPins.drawn = s.drawn := by
  unfold State.nextPins; split <;> rfl

/-- With no script the host holds the present levels. -/
@[simp] theorem State.nextPins_of_script_nil {s : State} (h : s.script = []) : s.nextPins = s := by
  unfold State.nextPins; rw [h]

/-- With a script the host drives its first entry next. -/
theorem State.nextPins_of_script_cons {s : State} {p : Pins} {rest : List Pins}
    (h : s.script = p :: rest) : s.nextPins = { s with pins := p, script := rest } := by
  unfold State.nextPins; rw [h]

/-- What the host may drive next: the present levels or the first entry of its script. -/
theorem State.nextPins_pins_cases (s : State) :
    s.nextPins.pins = s.pins ∨ s.nextPins.pins ∈ s.script := by
  unfold State.nextPins
  split
  · exact .inl rfl
  · next h => rw [h]; exact .inr (by simp)

theorem State.inFlight_powerUp {s : State} (h : s.phase = .powerUp) : s.inFlight = false := by
  unfold State.inFlight; rw [h]

theorem State.inFlight_idle {s : State} (h : s.phase = .idle) : s.inFlight = false := by
  unfold State.inFlight; rw [h]

theorem State.inFlight_busy {s : State} {wait : Nat} (h : s.phase = .busy wait) : s.inFlight = true := by
  unfold State.inFlight; rw [h]

theorem State.inFlight_done {s : State} (h : s.phase = .done) : s.inFlight = true := by
  unfold State.inFlight; rw [h]

/-- A response is held exactly in Done. -/
theorem State.responding_iff (s : State) : s.responding = true ↔ s.phase = .done := by
  unfold State.responding; split <;> simp_all

/-- No command is in flight exactly in Idle and before the first reset. -/
theorem State.inFlight_eq_false_iff (s : State) :
    s.inFlight = false ↔ s.phase = .idle ∨ s.phase = .powerUp := by
  unfold State.inFlight; split <;> simp_all

/-- A unit awaits its first reset exactly when it has not been reset. -/
theorem State.awaitingReset_eq_false_iff (s : State) : s.awaitingReset = false ↔ HasBeenReset s := by
  unfold State.awaitingReset; split <;> simp_all

/-- REQ_READY of a unit that has been reset (R21, R128). -/
theorem State.reqReady_of_hasBeenReset {s : State} (h : HasBeenReset s) :
    s.reqReady = (!s.inFlight && !s.pins.rst) := by
  unfold State.reqReady; rw [(State.awaitingReset_eq_false_iff s).2 h]; rfl

/-- RSP_VALID of a unit that has been reset (R20, R128). -/
theorem State.rspValid_of_hasBeenReset {s : State} (h : HasBeenReset s) :
    s.rspValid = (s.responding && !s.pins.rst) := by
  unfold State.rspValid; rw [(State.awaitingReset_eq_false_iff s).2 h]; rfl

@[simp] theorem State.nextPins_inFlight (s : State) : s.nextPins.inFlight = s.inFlight := by
  unfold State.inFlight; rw [State.nextPins_phase]

@[simp] theorem State.nextPins_awaitingReset (s : State) : s.nextPins.awaitingReset = s.awaitingReset := by
  unfold State.awaitingReset; rw [State.nextPins_phase]

@[simp] theorem State.resetEdge_awaitingReset (s : State) : s.resetEdge.awaitingReset = false := rfl

@[simp] theorem State.nextPins_responding (s : State) : s.nextPins.responding = s.responding := by
  unfold State.responding; rw [State.nextPins_phase]

end Sys2Proof.Machine
end

