-- ==== Sys2Proof/Laws/Ops.lean ====
section
/-! SUPPORT. For each shared operation, one lemma that says once everything it can do; later proofs cite it
instead of unfolding the operation. -/

namespace Sys2Proof.Machine

@[simp] theorem afterEdge_next (t : State) : afterEdge (.next t) = .next t.nextPins := rfl

/-- `afterEdge` answers a next state exactly when the edge did. -/
theorem afterEdge_eq_next_iff (o : Host.Outcome State Fault Refusal) (t : State) :
    afterEdge o = .next t ↔ ∃ u, o = .next u ∧ t = u.nextPins := by
  cases o <;> simp [afterEdge, eq_comm]

/-- LATENCY is at least 1 (R8, R20). -/
theorem latency_pos (c : Command) : 1 ≤ latency c := Nat.le_add_left 1 _

/-- Completion ends in Done, keeps everything but the response and the count of free values, and its
response is the finished one or the raised one. -/
theorem complete_spec (s : State) (r : Result) :
    (s.complete r).phase = .done ∧ (s.complete r).pins = s.pins ∧ (s.complete r).script = s.script ∧
    (s.complete r).held = s.held ∧ (s.complete r).digitCheck = s.digitCheck ∧ (s.complete r).rom = s.rom ∧
    ((∃ res0 res1, r = .finish res0 res1 ∧ s.complete r = s.finish res0 res1) ∨
      ∃ f, r = .raise f ∧ s.complete r = s.raise f) := by
  cases r with
  | finish res0 res1 => exact ⟨rfl, rfl, rfl, rfl, rfl, rfl, .inl ⟨res0, res1, rfl, rfl⟩⟩
  | raise f => exact ⟨rfl, rfl, rfl, rfl, rfl, rfl, .inr ⟨f, rfl, rfl⟩⟩

@[simp] theorem complete_finish (s : State) (res0 res1 : Word) :
    s.complete (.finish res0 res1) = s.endedOk res0 res1 := rfl

@[simp] theorem complete_raise (s : State) (f : FaultStatus) : s.complete (.raise f) = s.raise f := rfl

/-- A raised fault ends the command with its code. -/
theorem endsWithCode_raise (s : State) (f : FaultStatus) :
    EndsWithCode s (.next (s.complete (.raise f))) (Status.fault f).code := ⟨_, _, _, rfl⟩

/-- The codes are 0x00 to 0x07 (R105). -/
theorem code_le_seven (st : Status) : st.code.toNat ≤ 7 := by
  cases st with
  | ok => decide
  | fault f => cases f <;> decide

/-- A fault's code is not that of OK (R105). -/
theorem faultCode_ne_zero (f : FaultStatus) : (Status.fault f).code ≠ 0x00 := by cases f <;> decide

/-- The response of a raised fault is never OK (R105). -/
theorem raise_status_ne_ok (s : State) (f : FaultStatus) : (s.raise f).resp.status ≠ 0x00 :=
  faultCode_ne_zero f

/-- Different faults have different codes (R105). -/
theorem faultCode_inj {f g : FaultStatus} (h : (Status.fault f).code = (Status.fault g).code) : f = g := by
  revert h; cases f <;> cases g <;> decide

/-- Completing with the same result gives the same response from any two states, results compared only
where the status is OK (R16, R33). -/
theorem sameResponse_complete (s t : State) (r : Result) :
    SameResponse (.next (s.complete r)) (.next (t.complete r)) := by
  cases r with
  | finish res0 res1 => exact ⟨_, _, rfl, rfl, rfl, fun _ => rfl⟩
  | raise f => exact ⟨_, _, rfl, rfl, rfl, fun h => absurd h (faultCode_ne_zero f)⟩

/-- The idle edge accepts when REQ_VALID = REQ_READY = 1 and does nothing otherwise (R19). -/
theorem idleEdge_spec (s : State) :
    (s.pins.reqValid = true ∧ s.reqReady = true ∧ s.idleEdge = s.accept) ∨
    (¬(s.pins.reqValid = true ∧ s.reqReady = true) ∧ s.idleEdge = s) := by
  unfold State.idleEdge
  split
  · next h => simp at h; exact .inl ⟨h.1, h.2, rfl⟩
  · next h => simp at h; exact .inr ⟨by simpa using h, rfl⟩

/-- The done edge takes the response when RSP_VALID = RSP_READY = 1 and does nothing otherwise (R20). -/
theorem doneEdge_spec (s : State) :
    (s.rspValid = true ∧ s.pins.rspReady = true ∧ s.doneEdge = s.takeResponse) ∨
    (¬(s.rspValid = true ∧ s.pins.rspReady = true) ∧ s.doneEdge = s) := by
  unfold State.doneEdge
  split
  · next h => simp at h; exact .inl ⟨h.1, h.2, rfl⟩
  · next h => simp at h; exact .inr ⟨by simpa using h, rfl⟩

/-- The reset edge enters Idle and keeps the ROM, DIGIT_CHECK and the host's levels; what the holding
registers take is free (R128). -/
theorem resetEdge_spec (s : State) :
    ∃ held resp n, s.resetEdge = { s with phase := .idle, held := held, resp := resp, drawn := n } :=
  ⟨_, _, _, rfl⟩

/-- An edge with RST = 0 before the first reset keeps the phase, the ROM, DIGIT_CHECK and the host's levels;
what the holding registers take is free (R127). -/
theorem powerUpEdge_spec (s : State) :
    ∃ held resp n, s.powerUpEdge = { s with held := held, resp := resp, drawn := n } := ⟨_, _, _, rfl⟩

/-- What an edge does, by RST and phase. -/
theorem edge_cases (s : State) :
    (s.pins.rst = true ∧ edge s = .next s.resetEdge) ∨
    (s.pins.rst = false ∧ s.phase = .powerUp ∧ edge s = .next s.powerUpEdge) ∨
    (s.pins.rst = false ∧ s.phase = .idle ∧ edge s = .next s.idleEdge) ∨
    (s.pins.rst = false ∧ s.phase = .busy 0 ∧ edge s = completeEdge s) ∨
    (∃ wait, s.pins.rst = false ∧ s.phase = .busy (wait + 1) ∧ edge s = .next (s.waitOn wait)) ∨
    (s.pins.rst = false ∧ s.phase = .done ∧ edge s = .next s.doneEdge) := by
  unfold edge runningEdge
  cases hr : s.pins.rst
  · rcases hp : s.phase with _ | _ | (_ | wait) | _ <;> simp
  · simp

/-- The host reads a result exactly when RSP_VALID = 1 and STATUS is OK (R22, R33). -/
theorem readResult_spec (s : State) (pick : Response → Word) :
    (s.rspValid = false ∧ s.readResult pick = .fault .noResponse) ∨
    (s.rspValid = true ∧ s.resp.status ≠ Status.ok.code ∧ s.readResult pick = .fault .unspecifiedResult) ∨
    (s.rspValid = true ∧ s.resp.status = Status.ok.code ∧ s.readResult pick = .next (pick s.resp)) := by
  unfold State.readResult
  split
  · split
    · next h h' => exact .inr (.inr ⟨h, h', rfl⟩)
    · next h h' => exact .inr (.inl ⟨h, h', rfl⟩)
  · next h => exact .inl ⟨by simpa using h, rfl⟩

/-! The meanings, by name of the result each of them completes with. -/

theorem exec_abs128 (s : State) : exec .abs128 s = .next (s.complete (abs128 s.held.a)) := rfl

theorem exec_mul128 (s : State) : exec .mul128 s = .next (s.complete (mulResult s.held.a s.held.b)) := rfl

theorem exec_div256 (s : State) :
    exec .div256 s = .next (s.complete (divResult { hi := s.held.c, lo := s.held.a } s.held.b)) := rfl

theorem exec_pow10 (k : Nat) (s : State) : exec (.pow10 k) s = .next (s.complete (pow10Result s.rom k)) := rfl

theorem exec_divide (k : Nat) (s : State) :
    exec (.divide k) s = .next (s.complete (divideResult s.digitCheck s.rom k s.held.a s.held.b)) := rfl

theorem exec_divtype (s : State) :
    exec .divtype s = .next (s.complete (divtypeResult s.held.a s.held.b)) := rfl

theorem exec_sumtype (s : State) : exec .sumtype s = .next (s.complete (typeResult sumType s.held.a)) := rfl

theorem exec_avgtype (s : State) : exec .avgtype s = .next (s.complete (typeResult avgType s.held.a)) := rfl

end Sys2Proof.Machine
end

