-- ==== Sys2Proof/Laws/Operands.lean ====
section
/-! SUPPORT. One lemma for each operand form, ROM read, field of the command word and arithmetic helper. -/

namespace Sys2Proof

/-! ### Fields of the command word (R48), as arithmetic on the word -/

theorem opField_eq (w : CmdWord) : opField w = w.toNat % 32 := by
  simp [opField, BitVec.extractLsb'_toNat]

theorem rsv0Field_eq (w : CmdWord) : rsv0Field w = w.toNat / 32 % 8 := by
  simp [rsv0Field, BitVec.extractLsb'_toNat, Nat.shiftRight_eq_div_pow]

theorem kField_eq (w : CmdWord) : kField w = w.toNat / 256 % 256 := by
  simp [kField, BitVec.extractLsb'_toNat, Nat.shiftRight_eq_div_pow]

theorem rsv1Field_eq (w : CmdWord) : rsv1Field w = w.toNat / 65536 := by
  have := w.isLt
  simp [rsv1Field, BitVec.extractLsb'_toNat, Nat.shiftRight_eq_div_pow]
  omega

/-- The word of a well-formed command, as a number (R48). -/
theorem encode_toNat {i : Instr} (h : i.wellFormed = true) :
    (encode i).toNat = i.immediate * 256 + i.opcode := by
  cases i <;> simp_all [encode, Instr.wellFormed, Instr.immediate, Instr.opcode]
  all_goals omega

namespace Machine

/-! ### Readings of a port value (R10, R39, R56, R64) -/

/-- The magnitude pattern's value is |s(a)|, -2^127 included (R63, R64). -/
theorem magnitude_eq (a : Word) : magnitude a = a.toInt.natAbs := by
  have := a.isLt
  unfold magnitude magnitudePattern
  rw [BitVec.toInt_eq_msb_cond]
  split
  · next h =>
    have hm := BitVec.msb_eq_decide a
    rw [h] at hm
    simp at hm
    rw [BitVec.toNat_ofNat, Nat.mod_eq_of_lt (by omega)]
    omega
  · omega

/-- |s(a)| is at most 2^127. -/
theorem magnitude_le (a : Word) : magnitude a ≤ 2 ^ 127 := by
  rw [magnitude_eq]
  have h1 := BitVec.le_toInt a
  have h2 := @BitVec.toInt_lt 128 a
  simp at h1 h2
  omega

/-- Below 2^256 the two halves carry the number (R39). -/
theorem uint256Value_ofNat {n : Nat} (h : n < 2 ^ 256) : uint256Value (uint256OfNat n) = n := by
  simp only [uint256Value, uint256OfNat, BitVec.toNat_ofNat]
  omega

/-- The product of two port values fits in 256 bits (R67). -/
theorem product_lt (a b : Word) : a.toNat * b.toNat < 2 ^ 256 :=
  calc a.toNat * b.toNat < 2 ^ 128 * 2 ^ 128 := Nat.mul_lt_mul'' a.isLt b.isLt
    _ = 2 ^ 256 := by norm_num

theorem precisionField_eq (v : Word) : precisionField v = v.toNat % 256 := by
  simp [precisionField, BitVec.extractLsb'_toNat]

theorem scaleField_eq (v : Word) : scaleField v = v.toNat / 256 % 256 := by
  simp [scaleField, BitVec.extractLsb'_toNat, Nat.shiftRight_eq_div_pow]

theorem upperField_eq (v : Word) : upperField v = v.toNat / 65536 := by
  have := v.isLt
  simp [upperField, BitVec.extractLsb'_toNat, Nat.shiftRight_eq_div_pow]
  omega

/-- Reading a descriptor port: exactly the packed valid descriptors are read (R56). -/
theorem readDescriptor_eq_some_iff (v : Word) (d : Descriptor) :
    readDescriptor v = some d ↔ DescriptorIs v d.precision d.scale := by
  obtain ⟨p, sc⟩ := d
  unfold readDescriptor validDescriptor DescriptorIs
  rw [precisionField_eq, scaleField_eq, upperField_eq]
  split <;> simp_all
  all_goals omega

/-- A descriptor port that is not read is an invalid one (R112). -/
theorem readDescriptor_eq_none_iff (v : Word) : readDescriptor v = none ↔ InvalidDescriptor v := by
  unfold readDescriptor validDescriptor InvalidDescriptor
  rw [precisionField_eq, scaleField_eq, upperField_eq]
  split <;> simp_all
  all_goals omega

/-- The ROM at its constants: entry i is 10^i, and no other index is an entry (R35, R76). -/
theorem romRead_pow10Rom (i : Nat) :
    romRead pow10Rom i = if i < 39 then some (BitVec.ofNat 128 (10 ^ i)) else none := by
  by_cases h : i < 39
  · have key : ∀ j : Fin 39, romRead pow10Rom j = some (BitVec.ofNat 128 (10 ^ j.val)) := by decide
    rw [if_pos h]
    exact key ⟨i, h⟩
  · rw [if_neg h]
    exact Vector.getElem?_eq_none (by omega)

/-- Every entry's value is exact: 10^i is below 2^128 (R80). -/
theorem pow10_lt {i : Nat} (h : i < 39) : 10 ^ i < 2 ^ 128 :=
  calc 10 ^ i ≤ 10 ^ 38 := Nat.pow_le_pow_right (by norm_num) (by omega)
    _ < 2 ^ 128 := by norm_num

/-- Where enc128 is applied inside the i128 range, it is read back as the same integer (R10). -/
theorem enc128_toInt {n : Int} (h : fitsI128 n = true) : (enc128 n).toInt = n := by
  simp [fitsI128] at h
  unfold enc128
  rw [BitVec.toInt_ofInt, Int.bmod_def]
  norm_num at *
  split <;> omega

end Machine

end Sys2Proof
end

