-- ==== Sys2Proof/Laws/Decode.lean ====
section
/-! SUPPORT. What decoding answers, said once (R52). -/

namespace Sys2Proof

/-- A word decodes to a command exactly when its reserved fields are zero and OP and K are the command's. -/
theorem decode_eq_ok_iff (w : CmdWord) (i : Instr) :
    decode w = .ok i ↔
      w.toNat / 65536 = 0 ∧ w.toNat / 32 % 8 = 0 ∧ w.toNat % 32 = i.opcode ∧
        w.toNat / 256 % 256 = i.immediate := by
  have hlt := w.isLt
  unfold decode
  rw [rsv1Field_eq, rsv0Field_eq]
  split
  · simp; omega
  split
  · simp; omega
  unfold decodeOp withoutK
  rw [kField_eq, opField_eq]
  have h32 : w.toNat % 32 < 32 := Nat.mod_lt _ (by norm_num)
  generalize w.toNat % 32 = o at *
  interval_cases o <;> simp <;> (try split) <;> cases i <;> simp_all [Instr.opcode, Instr.immediate]

end Sys2Proof
end

