-- ==== Sys2Proof/Laws/PerInstr.lean ====
section
/-! SUPPORT. Facts said of every constructor of Instr, one lemma each. The family ReservedFieldsZero: the
word of a well-formed command has RSV1 = RSV0 = 0, its OP and its K (R48, R53). -/

namespace Sys2Proof.Laws

/-- The fields of a well-formed command's word (R48, R53). -/
def ReservedFieldsZero.Statement (i : Instr) : Prop :=
  i.wellFormed = true →
    rsv1Field (encode i) = 0 ∧ rsv0Field (encode i) = 0 ∧
    opField (encode i) = i.opcode ∧ kField (encode i) = i.immediate

/-- The fields of the word, from its number. -/
theorem fields_of_encode {i : Instr} (h : i.wellFormed = true) (hop : i.opcode < 32)
    (him : i.immediate < 256) :
    rsv1Field (encode i) = 0 ∧ rsv0Field (encode i) = 0 ∧
    opField (encode i) = i.opcode ∧ kField (encode i) = i.immediate := by
  rw [rsv1Field_eq, rsv0Field_eq, opField_eq, kField_eq, encode_toNat h]
  omega

theorem ReservedFieldsZero.abs128 : ReservedFieldsZero.Statement .abs128 :=
  fun h => fields_of_encode h (by decide) (by decide)

theorem ReservedFieldsZero.mul128 : ReservedFieldsZero.Statement .mul128 :=
  fun h => fields_of_encode h (by decide) (by decide)

theorem ReservedFieldsZero.div256 : ReservedFieldsZero.Statement .div256 :=
  fun h => fields_of_encode h (by decide) (by decide)

theorem ReservedFieldsZero.pow10 (k : Nat) : ReservedFieldsZero.Statement (.pow10 k) :=
  fun h => fields_of_encode h (by simp [Instr.opcode]) (by simpa [Instr.wellFormed, Instr.immediate] using h)

theorem ReservedFieldsZero.divide (k : Nat) : ReservedFieldsZero.Statement (.divide k) :=
  fun h => fields_of_encode h (by simp [Instr.opcode]) (by simpa [Instr.wellFormed, Instr.immediate] using h)

theorem ReservedFieldsZero.divtype : ReservedFieldsZero.Statement .divtype :=
  fun h => fields_of_encode h (by decide) (by decide)

theorem ReservedFieldsZero.sumtype : ReservedFieldsZero.Statement .sumtype :=
  fun h => fields_of_encode h (by decide) (by decide)

theorem ReservedFieldsZero.avgtype : ReservedFieldsZero.Statement .avgtype :=
  fun h => fields_of_encode h (by decide) (by decide)

end Sys2Proof.Laws
end

