-- ==== Sys2Proof/Tests/Slice0.lean ====
section
/-! SUPPORT. The smoke test of WellFormed, the decoding of words written out from R48 and R53, at most two
one-step tests for each command (expected values from 95_test_vectors.md, the V-number beside each), and
for every statement with hypotheses a state that meets them. -/

namespace Sys2Proof.Tests

open Sys2Proof.Machine

/-! ### WellFormed refuses a K of 256 or more (R51) -/

theorem test_wellFormed_refuses_pow10_256 : (Instr.pow10 256).wellFormed = false := by decide

theorem test_wellFormed_refuses_divide_256 : (Instr.divide 256).wellFormed = false := by decide

/-! ### Words written out bit by bit: RSV1, K, RSV0, OP (R48, R53) -/

theorem test_decode_abs128 :
    decode 0b0000000000000000_00000000_000_00001#32 = .ok .abs128 := by decide

theorem test_decode_mul128 :
    decode 0b0000000000000000_00000000_000_00010#32 = .ok .mul128 := by decide

theorem test_decode_div256 :
    decode 0b0000000000000000_00000000_000_00011#32 = .ok .div256 := by decide

theorem test_decode_pow10_19 :
    decode 0b0000000000000000_00010011_000_00100#32 = .ok (.pow10 19) := by decide

theorem test_decode_divide_200 :
    decode 0b0000000000000000_11001000_000_00101#32 = .ok (.divide 200) := by decide

theorem test_decode_divtype :
    decode 0b0000000000000000_00000000_000_00110#32 = .ok .divtype := by decide

theorem test_decode_sumtype :
    decode 0b0000000000000000_00000000_000_00111#32 = .ok .sumtype := by decide

theorem test_decode_avgtype :
    decode 0b0000000000000000_00000000_000_01000#32 = .ok .avgtype := by decide

/-- V131 to V138: a reserved OP at both ends, RSV0, an unused K, RSV1 at both ends. -/
theorem test_decode_illegal :
    decode 0x00000000#32 = .error .reservedOp ∧ decode 0x00000009#32 = .error .reservedOp ∧
    decode 0x0000001F#32 = .error .reservedOp ∧ decode 0x00000021#32 = .error .reservedLow ∧
    decode 0x00000101#32 = .error .unusedK ∧ decode 0x00000206#32 = .error .unusedK ∧
    decode 0x00010005#32 = .error .reservedHigh ∧ decode 0x80000002#32 = .error .reservedHigh := by decide

/-! ### One step of each command -/

/-- A unit after reset with this command captured and about to complete. -/
def holding (cmd : CmdWord) (a b c : Word) : State :=
  State.reset.presented { cmd := cmd, a := a, b := b, c := c }

/-- The same with DIGIT_CHECK = false. -/
def holdingUnchecked (cmd : CmdWord) (a b c : Word) : State :=
  { holding cmd a b c with digitCheck := false }

/-- The response after one step. -/
def responseOf (s : State) : Option Response :=
  match step s with
  | .next t => some t.resp
  | .fault _ => none
  | .refused _ => none

/-- The STATUS after one step. -/
def statusOf (s : State) : Option Byte := (responseOf s).map Response.status

/-- V8: ignored ports do not matter. -/
theorem test_abs128_of_negative :
    responseOf (holding 0x00000001 (-5) (-1) (-1)) = some { res0 := 5, res1 := 0, status := 0 } := by decide

/-- V6: -2^127 gives 2^127 unsigned. -/
theorem test_abs128_of_most_negative :
    responseOf (holding 0x00000001 0x80000000000000000000000000000000 0 0) =
      some { res0 := 0x80000000000000000000000000000000, res1 := 0, status := 0 } := by decide

/-- V11: the largest product. -/
theorem test_mul128_largest :
    responseOf (holding 0x00000002 (-1) (-1) 0) =
      some { res0 := 1, res1 := 0xFFFFFFFFFFFFFFFFFFFFFFFFFFFFFFFE, status := 0 } := by decide

/-- V14: the square of 10^38 - 1. -/
theorem test_mul128_square :
    responseOf (holding 0x00000002 0x4B3B4CA85A86C47A098A223FFFFFFFFF 0x4B3B4CA85A86C47A098A223FFFFFFFFF 0) =
      some
        { res0 := 0xE0FF0CA0BC87870BECEBBB8000000001
          res1 := 0x161BCCA7119915B50764B4ABE8652978
          status := 0 } := by decide

/-- V23: C is the high half, and the remainder goes to RES1. -/
theorem test_div256_wide :
    responseOf
        (holding 0x00000003 0 0x4B3B4CA85A86C47A098A224000000001 0x4B3B4CA85A86C47A098A224000000000) =
      some
        { res0 := 0xFFFFFFFFFFFFFFFFFFFFFFFFFFFFFFFC
          res1 := 0x2CED32A16A1B11E82628890000000004
          status := 0 } := by decide

/-- V26 and V24: DIV_ZERO before QUOT_OVF. -/
theorem test_div256_faults :
    statusOf (holding 0x00000003 0 0 5) = some 0x02 ∧ statusOf (holding 0x00000003 0 5 5) = some 0x04 := by
  decide

/-- V36: the ROM entry, whatever the ports carry. -/
theorem test_pow10_two :
    responseOf (holding 0x00000204 7 7 7) = some { res0 := 100, res1 := 0, status := 0 } := by decide

/-- V32, V33: the last entry and the first K out of range. -/
theorem test_pow10_ends :
    responseOf (holding 0x00002604 0 0 0) =
      some { res0 := 0x4B3B4CA85A86C47A098A224000000000, res1 := 0, status := 0 } ∧
    statusOf (holding 0x00002704 0 0 0) = some 0x03 := by decide

/-- V69: -25 * 10 / 100 = -2.5 rounds away from zero. -/
theorem test_divide_midpoint :
    responseOf (holding 0x00000105 (-25) 100 0) = some { res0 := -3, res1 := 0, status := 0 } := by decide

/-- V62, V63, V65, V54, V82, V71, V80: the faults in their order and both settings of DIGIT_CHECK. -/
theorem test_divide_faults :
    statusOf (holding 0x00002805 5 0 0) = some 0x02 ∧
    statusOf (holding 0x00002705 5 1 0) = some 0x03 ∧
    statusOf (holding 0x00000005 1 0xB4C4B357A5793B85F675DDC000000000 0) = some 0x06 ∧
    statusOf (holding 0x00000105 0x4B3B4CA85A86C47A098A223FFFFFFFFF 1 0) = some 0x05 ∧
    statusOf (holding 0x00000105 0xCCCCCCCCCCCCCCCCCCCCCCCCCCCCCCCD 4 0) = some 0x06 ∧
    statusOf (holdingUnchecked 0x00000005 0x80000000000000000000000000000000 (-1) 0) = some 0x05 ∧
    responseOf (holdingUnchecked 0x00000105 0xCCCCCCCCCCCCCCCCCCCCCCCCCCCCCCCD 4 0) =
      some { res0 := 0x80000000000000000000000000000000, res1 := 0, status := 0 } := by decide

/-- V91, V97: capped types; in the second the difference rs - s1 is negative on the way. -/
theorem test_divtype_capped :
    responseOf (holding 0x00000006 0x0514 0x0514 0) = some { res0 := 0x1226, res1 := 0x12, status := 0 } ∧
    responseOf (holding 0x00000006 0x2626 0x2626 0) = some { res0 := 0x0626, res1 := 6, status := 0 } := by
  decide

/-- V103: an invalid B. -/
theorem test_divtype_invalid_b : statusOf (holding 0x00000006 0x0205 0x0228 0) = some 0x07 := by decide

/-- V116: B is never checked. -/
theorem test_sumtype_ignores_b :
    responseOf (holding 0x00000007 0x0205 0x6363 0) = some { res0 := 0x020F, res1 := 0, status := 0 } := by
  decide

/-- V115: a bit above bit 15. -/
theorem test_sumtype_upper_bit : statusOf (holding 0x00000007 0x10205 0 0) = some 0x07 := by decide

/-- V124: both caps. -/
theorem test_avgtype_caps :
    responseOf (holding 0x00000008 0x1422 0 0) = some { res0 := 0x1226, res1 := 0, status := 0 } := by decide

/-- V130: a scale above the precision. -/
theorem test_avgtype_invalid : statusOf (holding 0x00000008 0x0605 0 0) = some 0x07 := by decide

/-! ### The host layer (R61, R51; programs P7 and P9) -/

theorem test_avgfin_refuses_negative_adjustment :
    encodeLine [{ res0 := 0x1226, res1 := 0, status := 0 }] (.divide (.sliceMinus 0 .r0 15 8 19) (.literal 1) (.literal 1)) =
      .error .negativeAdjustment := by decide

theorem test_decdiv_encodes_adjustment :
    encodeLine [{ res0 := 0x0626, res1 := 0x2C, status := 0 }] (.divide (.sliceMinus 0 .r1 7 0 0) (.literal 0) (.literal 1)) =
      .ok { cmd := 0x00002C05, a := 0, b := 1, c := 0 } := by decide

theorem test_wide_adjustment_is_not_truncated :
    encodeLine [] (.pow10 (.literal 256)) = .error .adjustmentTooWide := by decide

/-! ### Witnesses: for every statement with hypotheses, a state that meets them -/

/-- The present levels with REQ_VALID = 1 and an ABS128 of -5. -/
def requesting : Pins :=
  { rst := false, reqValid := true, rspReady := false, cmd := 0x00000001, a := -5, b := 0, c := 0 }

/-- An idle unit at which the host requests, and holds REQ_VALID = 0 afterwards. -/
def idleRequested : State := { State.reset with pins := requesting, script := [Pins.quiet] }

/-- A unit with an OK response held. -/
def responded : State :=
  { State.reset with
    phase := .done
    held := { cmd := 0x00000001, a := -5, b := 0, c := 0 }
    resp := { res0 := 5, res1 := 0, status := 0 } }

/-- The same with the host ready to take it. -/
def taking : State := { responded with pins := { Pins.quiet with rspReady := true } }

/-- A unit with a command in flight and RST = 1. -/
def resetting : State := { responded with pins := { Pins.quiet with rst := true } }

theorem witness_decodeOfEncode : (Instr.divide 255).wellFormed = true ∧ (Instr.pow10 0).wellFormed = true := by
  decide

theorem witness_legalWord : decode 0x0000FF05#32 = .ok (.divide 255) := by decide

theorem witness_opcodeMap_reserved :
    (0x00000000#32).toNat % 32 = 0 ∧ 9 ≤ (0x00000009#32).toNat % 32 ∧ 9 ≤ (0x0000001F#32).toNat % 32 := by decide

theorem witness_illegal :
    (holding 0 1 2 3).pins.rst = false ∧ (holding 0 1 2 3).phase = .busy 0 ∧
    decode (holding 0 1 2 3).held.cmd = .error .reservedOp := by decide

theorem witness_stepRuns :
    (holding 1 (-5) 0 0).pins.rst = false ∧ (holding 1 (-5) 0 0).phase = .busy 0 ∧
    decode (holding 1 (-5) 0 0).held.cmd = .ok .abs128 ∧
    (∃ t, exec .abs128 (holding 1 (-5) 0 0) = .next t) ∧ decodeTableWord 32 0x00000805 = some (.divide 8) :=
  ⟨rfl, rfl, by decide, ⟨_, rfl⟩, by decide⟩

theorem witness_acceptance :
    HasBeenReset idleRequested ∧ idleRequested.pins.reqValid = true ∧ idleRequested.reqReady = true ∧ idleRequested.pins.rst = false := by
  decide

theorem witness_noAcceptance :
    HasBeenReset responded ∧ responded.pins.rst = false ∧ ¬(responded.pins.reqValid = true ∧ responded.reqReady = true) ∧
    ∃ t, step responded = .next t := ⟨by decide, rfl, by decide, ⟨_, rfl⟩⟩

theorem witness_portsAfterAcceptance :
    (holding 1 (-5) 0 0).inFlight = true ∧ requesting.rst = (holding 1 (-5) 0 0).pins.rst ∧
    requesting.rspReady = (holding 1 (-5) 0 0).pins.rspReady ∧ ∃ t, step (holding 1 (-5) 0 0) = .next t :=
  ⟨rfl, rfl, rfl, ⟨_, rfl⟩⟩

theorem witness_responseWaits :
    responded.phase = .done ∧ responded.pins.rst = false ∧ responded.pins.rspReady = false ∧
    taking.phase = .done ∧ taking.pins.rst = false ∧ taking.pins.rspReady = true := by decide

theorem witness_oneInFlight :
    HasBeenReset taking ∧ HasBeenReset State.reset ∧ HasBeenReset idleRequested ∧ taking.inFlight = true ∧ State.reset.inFlight = false ∧ State.reset.pins.rst = false ∧
    (∃ t, step taking = .next t ∧ t.inFlight = false) ∧
    ∃ t, step idleRequested = .next t ∧ t.inFlight = true :=
  ⟨by decide, by decide, by decide, rfl, rfl, rfl, ⟨_, rfl, rfl⟩, ⟨_, rfl, rfl⟩⟩

theorem witness_latency :
    idleRequested.phase = .idle ∧ idleRequested.pins.rst = false ∧ idleRequested.pins.reqValid = true ∧
    (∀ p ∈ idleRequested.script, p.rst = false) ∧ 1 ≤ latency (capturedCommand idleRequested.pins) :=
  ⟨rfl, rfl, rfl, by decide, latency_pos _⟩

theorem witness_resetEdge :
    resetting.pins.rst = true ∧ HasBeenReset resetting ∧ ∃ t, step resetting = .next t :=
  ⟨rfl, by decide, ⟨_, rfl⟩⟩

/-- A unit just powered up, at which the host raises RST after the next edge. -/
def poweredUp : State := State.powerUp true Pins.quiet [{ Pins.quiet with rst := true }]

/-- Before the first reset: with RST = 0 the unit stays as it is, the second edge resets it (R127). -/
theorem witness_powerUp :
    ¬HasBeenReset poweredUp ∧ poweredUp.pins.rst = false ∧
    (∃ t, step poweredUp = .next t ∧ ¬HasBeenReset t ∧ t.pins.rst = true) ∧
    (∃ t, runEdges 2 poweredUp = .next t ∧ HasBeenReset t) ∧
    ∃ t, runEdges 3 (State.powerUp false Pins.quiet []) = .next t ∧ ¬HasBeenReset t :=
  ⟨by decide, rfl, ⟨_, rfl, by decide, rfl⟩, ⟨_, rfl, by decide⟩, ⟨_, rfl, by decide⟩⟩

theorem witness_anyStep : ∃ t, step idleRequested = .next t := ⟨_, rfl⟩

theorem witness_hostReads :
    responded.readRes0 = .next 5 ∧ responded.readRes1 = .next 0 ∧ responded.readStatus = .next 0 :=
  ⟨rfl, rfl, rfl⟩

theorem witness_invariant :
    RomIntact responded ∧ StatusLegal responded ∧ ResponseOfHeld responded ∧ ∃ t, step responded = .next t :=
  ⟨rfl, fun _ => by decide, fun _ => ⟨holding 1 (-5) 0 0, _, rfl, rfl, rfl, rfl, by decide⟩, ⟨_, rfl⟩⟩

theorem witness_statusCodes :
    statusOf (holding 0x00000003 0 0 5) = some 0x02 ∧ statusOf (holding 0x00000005 5 0 0) = some 0x02 ∧
    statusOf (holding 0x00002704 0 0 0) = some 0x03 ∧ statusOf (holding 0x00002705 5 1 0) = some 0x03 ∧
    statusOf (holding 0x00000003 0 5 5) = some 0x04 ∧
    statusOf (holding 0x00000105 0x33333333333333333333333333333333 4 0) = some 0x05 ∧
    statusOf (holding 0x00000005 0x4B3B4CA85A86C47A098A224000000000 1 0) = some 0x06 ∧
    statusOf (holding 0x00000006 0x0027 0x0205 0) = some 0x07 ∧
    statusOf (holding 0x00000007 0x0027 0 0) = some 0x07 ∧
    statusOf (holding 0x00000008 0x0605 0 0) = some 0x07 := by decide

theorem witness_oneResult :
    ∃ t, exec .abs128 (holding 1 (-5) 0 0) = .next t ∧ t.resp.status = 0x00 := ⟨_, rfl, by decide⟩

theorem witness_sameCommand :
    SameCommand (holding 5 7 2 0) { State.reset with phase := .done, held := (holding 5 7 2 0).held } :=
  ⟨rfl, rfl, rfl⟩

theorem witness_faulted :
    (∃ t, completeEdge (holding 0x00002704 0 0 0) = .next t ∧ t.resp.status ≠ 0x00) ∧
    ∃ t, completeEdge (holding 0x00000000 0 0 0) = .next t ∧ t.resp.status ≠ 0x00 :=
  ⟨⟨_, rfl, by decide⟩, ⟨_, rfl, by decide⟩⟩

theorem witness_interleaving : List.Perm [0, 1, 0] [1, 0, 0] := by decide

theorem witness_abs128 :
    (holding 1 (-5) 0 0).held.a.msb = true ∧ (holding 1 5 0 0).held.a.msb = false ∧
    (holding 1 0x80000000000000000000000000000000 0 0).held.a.msb = true := by decide

theorem witness_div256 :
    (holding 3 0 0 5).held.b.toNat = 0 ∧
    (holding 3 0 5 5).held.b.toNat ≠ 0 ∧ (holding 3 0 5 5).held.b.toNat ≤ (holding 3 0 5 5).held.c.toNat ∧
    (holding 3 (-1) 5 4).held.c.toNat < (holding 3 (-1) 5 4).held.b.toNat := by decide

theorem witness_longDivision :
    0 < (5 : Word).toNat ∧ ({ hi := 4, lo := -1 } : UInt256).hi.toNat < (5 : Word).toNat := by decide

theorem witness_mulThenDiv :
    (holding 2 (-1) (-1) 0).held.a.toNat ≠ 0 ∧ (mul128 (-1) (-1)).hi = 0xFFFFFFFFFFFFFFFFFFFFFFFFFFFFFFFE ∧
    (holding 3 (mul128 (-1) (-1)).lo (-1) (mul128 (-1) (-1)).hi).held.b = (holding 2 (-1) (-1) 0).held.a := by
  decide

theorem witness_pow10 : RomIntact (holding 0x00002604 0 0 0) ∧ (38 : Nat) ≤ 38 ∧ 38 < (39 : Nat) :=
  ⟨rfl, by decide, by decide⟩

theorem witness_roundHalfUp : 0 < (2 : Nat) ∧ roundHalfUp (5 / 2) (5 % 2) 2 = 3 := by decide

/-- The hypotheses of each clause of the DIVIDE statement at a boundary: the named q and res are those of
the operands. -/
def divideCase (s : State) (k q : Nat) (res : Int) : Prop :=
  q = (2 * (s.held.a.toInt.natAbs * 10 ^ k) + s.held.b.toInt.natAbs) / (2 * s.held.b.toInt.natAbs) ∧
  res = (if (s.held.a.toInt < 0) = (s.held.b.toInt < 0) then (q : Int) else -(q : Int))

/-- A zero divisor, with K out of range too. -/
theorem witness_divide_zero :
    divideCase (holding 0x00002805 5 0 0) 40 0 0 ∧ (holding 0x00002805 5 0 0).held.b.toInt = 0 := by
  unfold divideCase; decide

/-- K = 39. -/
theorem witness_divide_range :
    divideCase (holding 0x00002705 0 1 0) 39 0 0 ∧ (holding 0x00002705 0 1 0).held.b.toInt ≠ 0 := by
  unfold divideCase; decide

/-- |a| = 10^38. -/
theorem witness_divide_operandDigits :
    divideCase (holding 5 0x4B3B4CA85A86C47A098A224000000000 1 0) 0 (10 ^ 38) (10 ^ 38) ∧
    (holding 5 0x4B3B4CA85A86C47A098A224000000000 1 0).digitCheck = true ∧
    10 ^ 38 ≤ (holding 5 0x4B3B4CA85A86C47A098A224000000000 1 0).held.a.toInt.natAbs := by
  unfold divideCase; decide

/-- q = 2^127 and a positive result: just out of the i128 range (V79, V81). -/
theorem witness_divide_resultRange :
    divideCase (holding 0x00000105 0x33333333333333333333333333333333 4 0) 1 (2 ^ 127) (2 ^ 127) ∧
    (holding 0x00000105 0x33333333333333333333333333333333 4 0).held.a.toInt.natAbs < 10 ^ 38 ∧
    2 ^ 127 - 1 < (2 ^ 127 : Int) := by
  unfold divideCase; decide

/-- q = 2^127 and a negative result: in the i128 range, over 38 digits (V82). -/
theorem witness_divide_resultDigits :
    divideCase (holding 0x00000105 0xCCCCCCCCCCCCCCCCCCCCCCCCCCCCCCCD 4 0) 1 (2 ^ 127) (-2 ^ 127) ∧
    -2 ^ 127 ≤ (-2 ^ 127 : Int) ∧ (-2 ^ 127 : Int) ≤ 2 ^ 127 - 1 ∧ 10 ^ 38 ≤ (2 ^ 127 : Nat) := by
  unfold divideCase; decide

/-- q = 10^38 - 1 with the check on, and q = 2^127 with the check off (V53, V80). -/
theorem witness_divide_completes :
    divideCase (holding 5 0x4B3B4CA85A86C47A098A223FFFFFFFFF 1 0) 0 (10 ^ 38 - 1) (10 ^ 38 - 1) ∧
    RomIntact (holding 5 0x4B3B4CA85A86C47A098A223FFFFFFFFF 1 0) ∧
    (holding 5 0x4B3B4CA85A86C47A098A223FFFFFFFFF 1 0).held.a.toInt.natAbs < 10 ^ 38 ∧
    divideCase (holdingUnchecked 0x00000105 0xCCCCCCCCCCCCCCCCCCCCCCCCCCCCCCCD 4 0) 1 (2 ^ 127) (-2 ^ 127) := by
  unfold divideCase RomIntact; decide

theorem witness_divideSignLaw :
    RomIntact (holding 5 7 2 0) ∧ (holding 5 7 2 0).held.a.toInt ≠ -2 ^ 127 ∧
    (holding 5 7 2 0).held.b.toInt ≠ -2 ^ 127 ∧
    (2 * ((holding 5 7 2 0).held.a.toInt.natAbs * 10 ^ 0) + (holding 5 7 2 0).held.b.toInt.natAbs) /
      (2 * (holding 5 7 2 0).held.b.toInt.natAbs) ≠ 2 ^ 127 := by
  unfold RomIntact; decide

theorem witness_twoPaths :
    (1 : Word).toInt ≠ 0 ∧ twoPathQuotient 0x7FFFFFFFFFFFFFFFFFFFFFFFFFFFFFFF 1 1 10 = none ∧
    twoPathQuotient 0x7FFFFFFFFFFFFFFFFFFFFFFFFFFFFFFF 3 0 1 ≠ none := by decide

theorem witness_divtype_uncapped :
    DescriptorIs 0x0205#128 5 2 ∧ 8 = max 6 (2 + 5 + 1) ∧ 13 = (5 - 2) + 2 + 8 ∧ (13 : Nat) ≤ 38 := by
  unfold DescriptorIs; decide

theorem witness_divtype_capped :
    DescriptorIs 0x0514#128 20 5 ∧ 26 = max 6 (5 + 20 + 1) ∧ 46 = (20 - 5) + 5 + 26 ∧ 38 < (46 : Nat) ∧
    46 - 26 < 38 ∧ 18 = max (38 - (46 - 26)) (min 26 6) := by
  unfold DescriptorIs; decide

theorem witness_divtype_noFraction :
    DescriptorIs 0x0026#128 38 0 ∧ DescriptorIs 0x0001#128 1 0 ∧ 6 = max 6 (0 + 1 + 1) ∧
    44 = (38 - 0) + 0 + 6 ∧ 38 ≤ 44 - 6 ∧ 6 = min 6 6 := by
  unfold DescriptorIs; decide

theorem witness_invalidDescriptors :
    InvalidDescriptor 0x0027#128 ∧ InvalidDescriptor 0x0605#128 ∧ InvalidDescriptor 0x10205#128 ∧
    ¬InvalidDescriptor 0x2626#128 := by
  unfold InvalidDescriptor; decide

theorem witness_divtypeAdjustment :
    (⟨38, 38⟩ : Descriptor).scale ≤ (⟨38, 38⟩ : Descriptor).precision ∧
    ∃ t, exec .divtype (holding 6 0 0x2626 0) = .next t ∧ t.resp.status = 0x00 ∧ t.resp.res1.toNat = 44 :=
  ⟨by decide, ⟨_, rfl, by decide, by decide⟩⟩

theorem witness_sumtype_avgtype :
    DescriptorIs 0x2626#128 38 38 ∧ DescriptorIs 0x0000#128 0 0 ∧ 38 = min (38 + 4) 38 ∧
    18 = min (min (38 + 4) 18) 38 := by
  unfold DescriptorIs; decide

theorem witness_averageAdjustment :
    (avgType ⟨38, 18⟩).scale = 18 ∧ (avgType ⟨38, 19⟩).scale = 18 ∧ (19 : Nat) ≤ 38 := by decide

theorem witness_resultDescriptors :
    ∃ t, exec .sumtype (holding 7 0x041E 0 0) = .next t ∧ t.resp.status = 0x00 := ⟨_, rfl, by decide⟩

end Sys2Proof.Tests
end

section
/-! PROOFS. The layer under the statements of 10_state.md: the result a command completes with, one equation
for each way a step can go, and the inversion of `step` that every invariant below is derived from. -/

namespace Sys2Proof.Machine

/-! ### What a command completes with -/

/-- The result a command completes with: it reads DIGIT_CHECK, the ROM and the captured command only (R16). -/
def commandResult (digitCheck : Bool) (rom : Vector Word 39) (c : Command) : Instr → Result
  | .abs128 => abs128 c.a
  | .mul128 => mulResult c.a c.b
  | .div256 => divResult { hi := c.c, lo := c.a } c.b
  | .pow10 k => pow10Result rom k
  | .divide k => divideResult digitCheck rom k c.a c.b
  | .divtype => divtypeResult c.a c.b
  | .sumtype => typeResult sumType c.a
  | .avgtype => typeResult avgType c.a

/-- The result the held word completes with, an illegal one too (R33, R52). -/
def State.heldResult (s : State) : Result :=
  match s.fetch with
  | .ok i => commandResult s.digitCheck s.rom s.held i
  | .error _ => .raise .illegal

theorem exec_eq_complete (i : Instr) (s : State) :
    exec i s = .next (s.complete (commandResult s.digitCheck s.rom s.held i)) := by
  cases i with
  | abs128 => exact exec_abs128 s
  | mul128 => exact exec_mul128 s
  | div256 => exact exec_div256 s
  | pow10 k => exact exec_pow10 k s
  | divide k => exact exec_divide k s
  | divtype => exact exec_divtype s
  | sumtype => exact exec_sumtype s
  | avgtype => exact exec_avgtype s

theorem completeEdge_of_decode {s : State} {i : Instr} (h : decode s.held.cmd = .ok i) :
    completeEdge s = exec i s := by
  simp [completeEdge, State.fetch, h]

theorem completeEdge_eq_complete (s : State) : completeEdge s = .next (s.complete s.heldResult) := by
  unfold completeEdge State.heldResult
  cases s.fetch with
  | ok i => exact exec_eq_complete i s
  | error _ => rfl

theorem commandResult_congr {s t : State} (h : SameCommand s t) (i : Instr) :
    commandResult s.digitCheck s.rom s.held i = commandResult t.digitCheck t.rom t.held i := by
  obtain ⟨hheld, hdigit, hrom⟩ := h
  rw [hheld, hdigit, hrom]

theorem heldResult_congr {s t : State} (h : SameCommand s t) : s.heldResult = t.heldResult := by
  obtain ⟨hheld, hdigit, hrom⟩ := h
  unfold State.heldResult State.fetch
  rw [hheld, hdigit, hrom]

theorem sameResponse_completeEdge {s t : State} (h : SameCommand s t) :
    SameResponse (completeEdge s) (completeEdge t) := by
  rw [completeEdge_eq_complete, completeEdge_eq_complete, heldResult_congr h]
  exact sameResponse_complete s t _

@[simp] theorem complete_phase (s : State) (r : Result) : (s.complete r).phase = .done := by
  cases r <;> rfl

@[simp] theorem complete_pins (s : State) (r : Result) : (s.complete r).pins = s.pins := by
  cases r <;> rfl

@[simp] theorem complete_script (s : State) (r : Result) : (s.complete r).script = s.script := by
  cases r <;> rfl

@[simp] theorem complete_held (s : State) (r : Result) : (s.complete r).held = s.held := by
  cases r <;> rfl

@[simp] theorem complete_digitCheck (s : State) (r : Result) :
    (s.complete r).digitCheck = s.digitCheck := by
  cases r <;> rfl

@[simp] theorem complete_rom (s : State) (r : Result) : (s.complete r).rom = s.rom := by
  cases r <;> rfl

/-- Every way a command ends gives one of the eight codes (R105). -/
theorem complete_status_le_seven (s : State) (r : Result) : (s.complete r).resp.status.toNat ≤ 7 := by
  cases r with
  | finish res0 res1 => exact code_le_seven .ok
  | raise f => exact code_le_seven (.fault f)

/-! ### The handshake outputs of a unit that has been reset -/

theorem reqReady_iff {s : State} (h : HasBeenReset s) :
    s.reqReady = true ↔ s.phase = .idle ∧ s.pins.rst = false := by
  have hflight : s.inFlight = false ↔ s.phase = .idle := by simp [State.inFlight_eq_false_iff, h]
  simp [State.reqReady_of_hasBeenReset h, hflight]

theorem rspValid_iff {s : State} (h : HasBeenReset s) :
    s.rspValid = true ↔ s.phase = .done ∧ s.pins.rst = false := by
  simp [State.rspValid_of_hasBeenReset h, State.responding_iff]

theorem rspValid_eq_false_of_phase {s : State} (h : HasBeenReset s) (hp : s.phase ≠ .done) :
    s.rspValid = false := by
  rw [Bool.eq_false_iff, Ne, rspValid_iff h]
  exact fun hboth => hp hboth.1

theorem reqReady_eq_false_of_phase {s : State} (h : HasBeenReset s) (hp : s.phase ≠ .idle) :
    s.reqReady = false := by
  rw [Bool.eq_false_iff, Ne, reqReady_iff h]
  exact fun hboth => hp hboth.1

theorem inFlight_eq_true_iff {s : State} (h : HasBeenReset s) : s.inFlight = true ↔ s.phase ≠ .idle := by
  rw [← Bool.not_eq_false, State.inFlight_eq_false_iff]
  simp [h]

/-! ### One equation for each way a step can go -/

theorem step_of_rst {s : State} (hr : s.pins.rst = true) : step s = .next s.resetEdge.nextPins := by
  simp [step, edge, hr]

theorem step_of_running {s : State} (hr : s.pins.rst = false) : step s = afterEdge (runningEdge s) := by
  simp [step, edge, hr]

theorem step_of_powerUp {s : State} (hr : s.pins.rst = false) (hp : s.phase = .powerUp) :
    step s = .next s.powerUpEdge.nextPins := by
  simp [step_of_running hr, runningEdge, hp]

/-- With REQ_VALID = 1 the idle edge accepts, since REQ_READY = 1 in Idle (R19, R21). -/
theorem step_of_accept {s : State} (hr : s.pins.rst = false) (hp : s.phase = .idle)
    (hv : s.pins.reqValid = true) : step s = .next s.accept.nextPins := by
  have hready : s.reqReady = true := (reqReady_iff (by simp [hp])).2 ⟨hp, hr⟩
  simp [step_of_running hr, runningEdge, hp, State.idleEdge, hv, hready]

theorem step_of_noRequest {s : State} (hr : s.pins.rst = false) (hp : s.phase = .idle)
    (hv : s.pins.reqValid = false) : step s = .next s.nextPins := by
  simp [step_of_running hr, runningEdge, hp, State.idleEdge, hv]

theorem step_of_busy_zero {s : State} (hr : s.pins.rst = false) (hp : s.phase = .busy 0) :
    step s = afterEdge (completeEdge s) := by
  simp [step_of_running hr, runningEdge, hp]

theorem step_of_complete {s : State} (hr : s.pins.rst = false) (hp : s.phase = .busy 0) :
    step s = .next (s.complete s.heldResult).nextPins := by
  rw [step_of_busy_zero hr hp, completeEdge_eq_complete, afterEdge_next]

theorem step_of_wait {s : State} {wait : Nat} (hr : s.pins.rst = false) (hp : s.phase = .busy (wait + 1)) :
    step s = .next (s.waitOn wait).nextPins := by
  simp [step_of_running hr, runningEdge, hp]

/-- With RSP_READY = 1 the done edge takes the response, since RSP_VALID = 1 in Done (R20). -/
theorem step_of_take {s : State} (hr : s.pins.rst = false) (hp : s.phase = .done)
    (hy : s.pins.rspReady = true) : step s = .next s.takeResponse.nextPins := by
  have hvalid : s.rspValid = true := (rspValid_iff (by simp [hp])).2 ⟨hp, hr⟩
  simp [step_of_running hr, runningEdge, hp, State.doneEdge, hy, hvalid]

theorem step_of_hold {s : State} (hr : s.pins.rst = false) (hp : s.phase = .done)
    (hy : s.pins.rspReady = false) : step s = .next s.nextPins := by
  simp [step_of_running hr, runningEdge, hp, State.doneEdge, hy]

/-- The eight ways an edge can go, with the state each of them leads to; `step_eq_next_iff` says that these
are the steps of the model. -/
inductive StepTo (s : State) : State → Prop where
  | reset (hr : s.pins.rst = true) : StepTo s s.resetEdge.nextPins
  | powerUp (hr : s.pins.rst = false) (hp : s.phase = .powerUp) : StepTo s s.powerUpEdge.nextPins
  | accept (hr : s.pins.rst = false) (hp : s.phase = .idle) (hv : s.pins.reqValid = true) :
      StepTo s s.accept.nextPins
  | noRequest (hr : s.pins.rst = false) (hp : s.phase = .idle) (hv : s.pins.reqValid = false) :
      StepTo s s.nextPins
  | complete (hr : s.pins.rst = false) (hp : s.phase = .busy 0) :
      StepTo s (s.complete s.heldResult).nextPins
  | wait (wait : Nat) (hr : s.pins.rst = false) (hp : s.phase = .busy (wait + 1)) :
      StepTo s (s.waitOn wait).nextPins
  | take (hr : s.pins.rst = false) (hp : s.phase = .done) (hy : s.pins.rspReady = true) :
      StepTo s s.takeResponse.nextPins
  | hold (hr : s.pins.rst = false) (hp : s.phase = .done) (hy : s.pins.rspReady = false) :
      StepTo s s.nextPins

theorem step_of_stepTo {s t : State} (h : StepTo s t) : step s = .next t := by
  cases h with
  | reset hr => exact step_of_rst hr
  | powerUp hr hp => exact step_of_powerUp hr hp
  | accept hr hp hv => exact step_of_accept hr hp hv
  | noRequest hr hp hv => exact step_of_noRequest hr hp hv
  | complete hr hp => exact step_of_complete hr hp
  | wait _ hr hp => exact step_of_wait hr hp
  | take hr hp hy => exact step_of_take hr hp hy
  | hold hr hp hy => exact step_of_hold hr hp hy

/-- Every state has a step of one of the eight kinds (R125). -/
theorem exists_stepTo (s : State) : ∃ t, StepTo s t := by
  cases hr : s.pins.rst with
  | true => exact ⟨_, .reset hr⟩
  | false =>
    cases hp : s.phase with
    | powerUp => exact ⟨_, .powerUp hr hp⟩
    | idle =>
      cases hv : s.pins.reqValid with
      | true => exact ⟨_, .accept hr hp hv⟩
      | false => exact ⟨_, .noRequest hr hp hv⟩
    | busy wait =>
      cases wait with
      | zero => exact ⟨_, .complete hr hp⟩
      | succ wait => exact ⟨_, .wait wait hr hp⟩
    | done =>
      cases hy : s.pins.rspReady with
      | true => exact ⟨_, .take hr hp hy⟩
      | false => exact ⟨_, .hold hr hp hy⟩

theorem step_eq_next_iff (s t : State) : step s = .next t ↔ StepTo s t := by
  refine ⟨fun h => ?_, step_of_stepTo⟩
  obtain ⟨u, hu⟩ := exists_stepTo s
  have heq : Host.Outcome.next u = Host.Outcome.next t := (step_of_stepTo hu).symm.trans h
  cases heq
  exact hu

/-! ### The invariant -/

theorem inv_nextPins {s : State} (h : Inv s) : Inv s.nextPins := by
  simpa [Inv, RomIntact, StatusLegal, ResponseOfHeld] using h

/-- Outside Done no response is held, so only the ROM counts. -/
theorem inv_of_not_done {s : State} (hrom : RomIntact s) (hp : s.phase ≠ .done) : Inv s :=
  ⟨hrom, fun h => absurd h hp, fun h => absurd h hp⟩

theorem inv_complete {s : State} (hrom : RomIntact s) : Inv (s.complete s.heldResult) := by
  have hresponse : ResponseOfHeld (s.complete s.heldResult) := fun _ =>
    ⟨s, s.complete s.heldResult, by simp, by simp, by simp, completeEdge_eq_complete s, rfl⟩
  exact ⟨(complete_rom s _).trans hrom, fun _ => complete_status_le_seven s _, hresponse⟩

/-- Settles O17: the steps that leave a response held are completion, where `inv_complete` applies, and the
edge that takes nothing. -/
theorem stepKeepsTheInvariant : Obligations.StepKeepsTheInvariant := by
  intro s t hinv hstep
  have hrom : RomIntact s := hinv.1
  cases (step_eq_next_iff s t).1 hstep with
  | reset _ => exact inv_nextPins (inv_of_not_done hrom (by simp))
  | powerUp _ hp => exact inv_nextPins (inv_of_not_done hrom (by simp [hp]))
  | accept _ _ _ => exact inv_nextPins (inv_of_not_done hrom (by simp))
  | noRequest _ _ _ => exact inv_nextPins hinv
  | complete _ _ => exact inv_nextPins (inv_complete hrom)
  | wait _ _ _ => exact inv_nextPins (inv_of_not_done hrom (by simp))
  | take _ _ _ => exact inv_nextPins (inv_of_not_done hrom (by simp))
  | hold _ _ _ => exact inv_nextPins hinv

/-- Settles O18. -/
theorem resetMeetsTheInvariant : Obligations.ResetMeetsTheInvariant := by
  have hidle : State.reset.phase = .idle := rfl
  exact ⟨inv_of_not_done rfl (by simp [hidle]), by simp [hidle]⟩

/-! ### Acceptance and the command in flight -/

/-- Only an accepting edge changes the command holding register while RST = 0 (R19; log entry 10). -/
theorem step_held_of_not_accepting {s t : State} (h : HasBeenReset s) (hr : s.pins.rst = false)
    (hno : ¬(s.pins.reqValid = true ∧ s.reqReady = true)) (hstep : step s = .next t) : t.held = s.held := by
  cases (step_eq_next_iff s t).1 hstep with
  | reset hrst => simp [hr] at hrst
  | powerUp _ hp => exact absurd hp h
  | accept _ hp hv => exact absurd ⟨hv, (reqReady_iff h).2 ⟨hp, hr⟩⟩ hno
  | noRequest _ _ _ => simp
  | complete _ _ => simp
  | wait _ _ _ => simp
  | take _ _ _ => simp
  | hold _ _ _ => simp

/-- The same unit with other levels on the input ports, now and later. -/
def State.withPorts (s : State) (p : Pins) (later : List Pins) : State := { s with pins := p, script := later }

@[simp] theorem withPorts_pins (s : State) (p : Pins) (later : List Pins) : (s.withPorts p later).pins = p := rfl

@[simp] theorem withPorts_phase (s : State) (p : Pins) (later : List Pins) :
    (s.withPorts p later).phase = s.phase := rfl

@[simp] theorem withPorts_held (s : State) (p : Pins) (later : List Pins) :
    (s.withPorts p later).held = s.held := rfl

@[simp] theorem withPorts_resp (s : State) (p : Pins) (later : List Pins) :
    (s.withPorts p later).resp = s.resp := rfl

@[simp] theorem withPorts_drawn (s : State) (p : Pins) (later : List Pins) :
    (s.withPorts p later).drawn = s.drawn := rfl

theorem complete_withPorts (s : State) (p : Pins) (later : List Pins) (r : Result) :
    (s.withPorts p later).complete r = (s.complete r).withPorts p later := by
  cases r <;> rfl

/-- While a command is in flight, a step looks at no port but RST and RSP_READY: with other levels on the
others it does the same to the unit (R19; log entries 4, 5 and 9). -/
theorem step_withPorts {s t : State} {p : Pins} {later : List Pins} (hflight : s.inFlight = true)
    (hrst : p.rst = s.pins.rst) (hready : p.rspReady = s.pins.rspReady) (hstep : step s = .next t) :
    ∃ u : State, t = u.nextPins ∧ step (s.withPorts p later) = .next (u.withPorts p later).nextPins := by
  cases (step_eq_next_iff s t).1 hstep with
  | reset hr => exact ⟨_, rfl, step_of_rst (hrst.trans hr)⟩
  | powerUp _ hp => simp [State.inFlight_powerUp hp] at hflight
  | accept _ hp _ => simp [State.inFlight_idle hp] at hflight
  | noRequest _ hp _ => simp [State.inFlight_idle hp] at hflight
  | complete hr hp =>
    refine ⟨_, rfl, ?_⟩
    rw [step_of_complete (s := s.withPorts p later) (hrst.trans hr) hp, complete_withPorts]
    rfl
  | wait _ hr hp => exact ⟨_, rfl, step_of_wait (s := s.withPorts p later) (hrst.trans hr) hp⟩
  | take hr hp hy => exact ⟨_, rfl, step_of_take (s := s.withPorts p later) (hrst.trans hr) hp (hready.trans hy)⟩
  | hold hr hp hy => exact ⟨_, rfl, step_of_hold (s := s.withPorts p later) (hrst.trans hr) hp (hready.trans hy)⟩

/-- Settles O9: the accepting edge is `State.accept`, no other writes the register, and a step in flight
commutes with a change of the other ports. -/
theorem acceptanceCapturesThePorts : Obligations.AcceptanceCapturesThePorts := by
  refine ⟨fun s h hv hready hr => ?_, fun s t h hr hno hstep => step_held_of_not_accepting h hr hno hstep,
    fun s t p later hflight hrst hready hstep => ?_⟩
  · have hidle : s.phase = .idle := ((reqReady_iff h).1 hready).1
    exact ⟨_, step_of_accept hr hidle hv⟩
  · obtain ⟨u, rfl, hv⟩ := step_withPorts (later := later) hflight hrst hready hstep
    exact ⟨_, hv, by simp⟩

/-- A command stops being in flight exactly at the edge that takes its response (R20, R21). -/
theorem step_ends_inFlight_iff {s t : State} (hr : s.pins.rst = false) (hflight : s.inFlight = true)
    (hstep : step s = .next t) : t.inFlight = false ↔ s.rspValid = true ∧ s.pins.rspReady = true := by
  cases (step_eq_next_iff s t).1 hstep with
  | reset hrst => simp [hr] at hrst
  | powerUp _ hp => simp [State.inFlight_powerUp hp] at hflight
  | accept _ hp _ => simp [State.inFlight_idle hp] at hflight
  | noRequest _ hp _ => simp [State.inFlight_idle hp] at hflight
  | complete _ hp => simp [State.inFlight_eq_false_iff, rspValid_iff (s := s), hp]
  | wait _ _ hp => simp [State.inFlight_eq_false_iff, rspValid_iff (s := s), hp]
  | take _ hp hy => simp [State.inFlight_eq_false_iff, rspValid_iff (s := s), hp, hr, hy]
  | hold _ hp hy => simp [State.inFlight_eq_false_iff, hp, hy]

/-- From Idle a command comes in flight exactly when REQ_VALID = 1 (R19, R21). -/
theorem step_begins_inFlight_iff {s t : State} (h : HasBeenReset s) (hr : s.pins.rst = false)
    (hflight : s.inFlight = false) (hstep : step s = .next t) :
    t.inFlight = true ↔ s.pins.reqValid = true := by
  have hidle : s.phase = .idle := ((State.inFlight_eq_false_iff s).1 hflight).resolve_right h
  cases hv : s.pins.reqValid with
  | true =>
    cases (step_of_accept hr hidle hv).symm.trans hstep
    simp [State.inFlight_busy (State.accept_phase s)]
  | false =>
    cases (step_of_noRequest hr hidle hv).symm.trans hstep
    simp [hflight]

/-- Settles O11: REQ_READY is 1 in Idle only, and the two lemmas above say when a command comes in flight and
stops being so. -/
theorem oneCommandInFlight : Obligations.OneCommandInFlight := by
  intro s h
  have hbusy : s.inFlight = true → s.reqReady = false := fun hflight =>
    reqReady_eq_false_of_phase h ((inFlight_eq_true_iff h).1 hflight)
  refine ⟨hbusy, fun hflight hr => ?_, fun t hr hstep hflight => ?_,
    fun t hr hstep hflight => step_ends_inFlight_iff hr hflight hstep,
    fun t hr hstep hflight => step_begins_inFlight_iff h hr hflight hstep⟩
  · simp [State.reqReady_of_hasBeenReset h, hflight, hr]
  · exact step_held_of_not_accepting h hr (by simp [hbusy hflight]) hstep

/-! ### The wait for a response -/

theorem runEdges_add {m : Nat} {s t : State} (h : runEdges m s = .next t) (n : Nat) :
    runEdges (m + n) s = runEdges n t := by
  induction m generalizing s with
  | zero => cases h; rw [Nat.zero_add]
  | succ m ih =>
    obtain ⟨u, hu⟩ := exists_stepTo s
    have hstep := step_of_stepTo hu
    rw [Nat.succ_add]
    simp only [runEdges, hstep] at h ⊢
    exact ih h

theorem runEdges_one (s : State) : runEdges 1 s = step s := by
  obtain ⟨t, ht⟩ := exists_stepTo s
  simp [runEdges, step_of_stepTo ht]

/-- The host keeps RST = 0, now and at every later edge. -/
def NoResetAhead (s : State) : Prop := s.pins.rst = false ∧ ∀ p ∈ s.script, p.rst = false

theorem noResetAhead_nextPins {s : State} (h : NoResetAhead s) : NoResetAhead s.nextPins := by
  obtain ⟨hnow, hlater⟩ := h
  cases hs : s.script with
  | nil => rw [State.nextPins_of_script_nil hs]; exact ⟨hnow, hlater⟩
  | cons p rest =>
    rw [hs] at hlater
    rw [State.nextPins_of_script_cons hs]
    exact ⟨hlater p List.mem_cons_self, fun q hq => hlater q (List.mem_cons_of_mem p hq)⟩

/-- Where `n` edges with RST = 0 lead while the latency of the command runs out (R20). -/
theorem runEdges_busy (n wait : Nat) {s : State} (hquiet : NoResetAhead s)
    (hp : s.phase = .busy (wait + n)) :
    ∃ t, runEdges n s = .next t ∧ t.phase = .busy wait ∧ SameCommand t s ∧ NoResetAhead t := by
  induction n generalizing s with
  | zero => exact ⟨s, rfl, hp, ⟨rfl, rfl, rfl⟩, hquiet⟩
  | succ n ih =>
    have hstep : step s = .next (s.waitOn (wait + n)).nextPins := step_of_wait hquiet.1 hp
    have hnext : NoResetAhead (s.waitOn (wait + n)).nextPins := noResetAhead_nextPins hquiet
    obtain ⟨t, hrun, hphase, hcmd, hahead⟩ := ih hnext (by simp)
    exact ⟨t, by simpa only [runEdges, hstep] using hrun, hphase, by simpa [SameCommand] using hcmd, hahead⟩

/-- Where the accepting edge and `n` more of the LATENCY - 1 waiting ones lead (R19, R20). -/
theorem runEdges_accepted {s : State} (hp : s.phase = .idle) (hv : s.pins.reqValid = true)
    (hquiet : NoResetAhead s) {n : Nat} (hn : n < latency (capturedCommand s.pins)) :
    ∃ t, runEdges (n + 1) s = .next t ∧ t.phase = .busy (latency (capturedCommand s.pins) - 1 - n) ∧
      SameCommand t { s with held := capturedCommand s.pins } ∧ NoResetAhead t := by
  have hstep : step s = .next s.accept.nextPins := step_of_accept hquiet.1 hp hv
  have haccepted : NoResetAhead s.accept.nextPins := noResetAhead_nextPins hquiet
  have hbusy : s.accept.nextPins.phase = .busy (latency (capturedCommand s.pins) - 1 - n + n) := by
    simp; omega
  obtain ⟨t, hrun, hphase, hcmd, hahead⟩ := runEdges_busy n _ haccepted hbusy
  exact ⟨t, by simpa only [runEdges, hstep] using hrun, hphase, by simpa [SameCommand] using hcmd, hahead⟩

theorem sameResponse_nextPins {s : State} {o : Host.Outcome State Fault Refusal}
    (h : SameResponse (.next s) o) : SameResponse (.next s.nextPins) o := by
  obtain ⟨_, t, hs, ht, hstatus, hresp⟩ := h
  cases hs
  exact ⟨_, t, rfl, ht, by simpa using hstatus, by simpa using hresp⟩

/-- Settles O12, by counting the wait down from LATENCY - 1 and running the completing edge. -/
theorem responseComesAfterLatency : Obligations.ResponseComesAfterLatency := by
  intro s hp hr hv hscript
  have hlatency := latency_pos (capturedCommand s.pins)
  refine ⟨hlatency, fun k hk hle => ?_, ?_⟩
  · obtain ⟨n, rfl⟩ := Nat.exists_eq_add_of_le' hk
    obtain ⟨t, hrun, hphase, -, -⟩ := runEdges_accepted hp hv ⟨hr, hscript⟩ hle
    have hreset : HasBeenReset t := by simp [hphase]
    exact ⟨t, hrun, rspValid_eq_false_of_phase hreset (by simp [hphase]),
      reqReady_eq_false_of_phase hreset (by simp [hphase])⟩
  · obtain ⟨t, hrun, hphase, hcmd, hahead⟩ :=
      runEdges_accepted hp hv ⟨hr, hscript⟩ (Nat.sub_one_lt_of_lt hlatency)
    rw [Nat.sub_add_cancel hlatency] at hrun
    rw [Nat.sub_self] at hphase
    have hlast : NoResetAhead (t.complete t.heldResult).nextPins :=
      noResetAhead_nextPins (by simpa [NoResetAhead] using hahead)
    have hdone : (t.complete t.heldResult).nextPins.phase = .done := by simp
    refine ⟨(t.complete t.heldResult).nextPins, ?_, ?_, ?_, sameResponse_nextPins ?_⟩
    · rw [runEdges_add hrun, runEdges_one, step_of_complete hahead.1 hphase]
    · exact (rspValid_iff (by simp)).2 ⟨hdone, hlast.1⟩
    · simpa using hcmd.1
    · rw [← completeEdge_eq_complete]
      exact sameResponse_completeEdge hcmd

/-- Settles O21: both states complete with the same result. -/
theorem responseDependsOnTheCommandAlone : Obligations.ResponseDependsOnTheCommandAlone := by
  intro i s t hcmd
  rw [exec_eq_complete, exec_eq_complete, commandResult_congr hcmd]
  exact sameResponse_complete s t _

/-! ### The completing edge, the waiting response, reset and the host's reads -/

theorem decodeTableWord_eq_some_iff (nbits w : Nat) (i : Instr) :
    decodeTableWord nbits w = some i ↔ decode (tableWord nbits w) = .ok i := by
  unfold decodeTableWord
  cases decode (tableWord nbits w) <;> simp [Except.toOption]

/-- Settles O6: with the latency run out a step is the completing edge, which runs the decoded command. -/
theorem stepRunsTheHeldCommand : Obligations.StepRunsTheHeldCommand := by
  refine ⟨fun s t i hr hp hdecode hexec => ?_, fun s nbits w i htable => ?_⟩
  · rw [step_of_busy_zero hr hp, completeEdge_of_decode hdecode, hexec, afterEdge_next]
  · have hdecode : decode (s.withFetchWord nbits w).held.cmd = .ok i :=
      (decodeTableWord_eq_some_iff nbits w i).1 htable
    rw [step_of_busy_zero rfl rfl, completeEdge_of_decode hdecode]

/-- Settles O10. -/
theorem responseWaitsUntilTaken : Obligations.ResponseWaitsUntilTaken := by
  intro s hp hr
  refine ⟨(rspValid_iff (by simp [hp])).2 ⟨hp, hr⟩, step_of_hold hr hp, fun hy => ?_⟩
  exact ⟨_, step_of_take hr hp hy, by simp, rspValid_eq_false_of_phase (by simp) (by simp), rfl⟩

/-- A read of STATUS gives a value exactly while RSP_VALID = 1 (R22). -/
theorem readStatus_eq_next_iff (s : State) (st : Byte) :
    s.readStatus = .next st ↔ s.rspValid = true ∧ st = s.resp.status := by
  unfold State.readStatus
  cases s.rspValid <;> simp [eq_comm]

/-- A read of a result gives a value exactly while RSP_VALID = 1 and STATUS is OK (R22, R33). -/
theorem readResult_eq_next_iff (s : State) (pick : Response → Word) (v : Word) :
    s.readResult pick = .next v ↔ s.rspValid = true ∧ s.resp.status = 0x00 ∧ v = pick s.resp := by
  have hok : Status.ok.code = 0x00 := rfl
  rcases readResult_spec s pick with ⟨hv, hread⟩ | ⟨hv, hst, hread⟩ | ⟨hv, hst, hread⟩
  · simp [hread, hv]
  · rw [hok] at hst
    simpa [hread] using fun _ heq => absurd heq hst
  · rw [hok] at hst
    simp [hread, hv, hst, eq_comm]

/-- Settles O15. -/
theorem hostReadsAreGated : Obligations.HostReadsAreGated := fun s v st =>
  ⟨readStatus_eq_next_iff s st, readResult_eq_next_iff s Response.res0 v,
    readResult_eq_next_iff s Response.res1 v⟩

/-- While RSP_VALID = 0 no holding register can be read (R22, R34). -/
theorem reads_fault_of_rspValid_eq_false {s : State} (h : s.rspValid = false) :
    s.readStatus = .fault .noResponse ∧ s.readRes0 = .fault .noResponse ∧
      s.readRes1 = .fault .noResponse := by
  simp [State.readStatus, State.readRes0, State.readRes1, State.readResult, h]

/-- Settles O14. -/
theorem stateAfterReset : Obligations.StateAfterReset := by
  have hidle : State.reset.phase = .idle := rfl
  have hreset : HasBeenReset State.reset := by simp [hidle]
  have hvalid : State.reset.rspValid = false := rspValid_eq_false_of_phase hreset (by simp [hidle])
  obtain ⟨hstatus, hres0, hres1⟩ := reads_fault_of_rspValid_eq_false hvalid
  refine ⟨hidle, State.inFlight_idle hidle, (reqReady_iff hreset).2 ⟨hidle, rfl⟩, hvalid, ?_,
    hstatus, hres0, hres1, fun s t hr hstep => ?_⟩
  · intro i hi
    have hentry : State.reset.rom[i]? = some (BitVec.ofNat 128 (10 ^ i)) :=
      (romRead_pow10Rom i).trans (if_pos hi)
    exact ⟨_, hentry, by rw [BitVec.toNat_ofNat, Nat.mod_eq_of_lt (pow10_lt hi)]⟩
  · cases (step_of_rst hr).symm.trans hstep
    have hphase : s.resetEdge.nextPins.phase = .idle := by simp
    exact ⟨hphase, State.inFlight_idle hphase, rspValid_eq_false_of_phase (by simp) (by simp), by simp, by simp⟩

end Sys2Proof.Machine
end

section
/-! PROOFS. The statements of 20_memory.md: what a schedule does to each unit of a system, and the number
a list of bytes of a pattern carries. -/

namespace Sys2Proof.Machine

/-! ### Instances share nothing -/

/-- The state one edge leads to; `step_eq_next_afterStep` says that every step ends in it. -/
def State.afterStep (s : State) : State :=
  match step s with
  | .next t => t
  | .fault _ => s
  | .refused _ => s

theorem step_eq_next_afterStep (s : State) : step s = .next s.afterStep := by
  obtain ⟨t, ht⟩ := exists_stepTo s
  have hstep : step s = .next t := step_of_stepTo ht
  have hafter : s.afterStep = t := by simp [State.afterStep, hstep]
  rw [hafter, hstep]

/-- An edge at place `i` touches the unit there only, and never fails (R44, R122). -/
theorem stepInstance_eq_modify (i : Nat) (system : List State) :
    stepInstance i system = .next (system.modify i State.afterStep) := by
  unfold stepInstance
  cases hi : system[i]? with
  | none => simp [List.modify_eq_self (List.getElem?_eq_none_iff.1 hi)]
  | some s => simp [step_eq_next_afterStep, List.modify_eq_set_getElem?, hi]

/-- The system in which every unit has seen the edges the schedule gives it, on its own. -/
def afterSchedule (order : List Nat) (system : List State) : List State :=
  system.mapIdx fun i s => State.afterStep^[order.count i] s

theorem afterSchedule_nil (system : List State) : afterSchedule [] system = system :=
  List.ext_getElem? fun j => by simp [afterSchedule]

/-- An edge at place `i` before a schedule is one more edge for that unit in the schedule. -/
theorem afterSchedule_modify (i : Nat) (rest : List Nat) (system : List State) :
    afterSchedule rest (system.modify i State.afterStep) = afterSchedule (i :: rest) system := by
  refine List.ext_getElem? fun j => ?_
  by_cases hij : i = j
  · subst hij
    simp [afterSchedule, Function.comp_def]
  · simp [afterSchedule, hij]

/-- Each unit ends where its own edges lead it, wherever they stand in the schedule. -/
theorem runSchedule_eq_afterSchedule (order : List Nat) (system : List State) :
    runSchedule order system = .next (afterSchedule order system) := by
  induction order generalizing system with
  | nil => rw [runSchedule, afterSchedule_nil]
  | cons i rest ih =>
    simp only [runSchedule, stepInstance_eq_modify]
    rw [ih, afterSchedule_modify]

/-- A schedule counts only by the number of its edges at each unit. -/
theorem afterSchedule_perm {order other : List Nat} (h : order.Perm other) (system : List State) :
    afterSchedule order system = afterSchedule other system := by
  simp only [afterSchedule, h.count_eq]

/-- Settles O24: both orders give each unit the same number of edges. -/
theorem instancesInterleaveFreely : Obligations.InstancesInterleaveFreely := by
  intro order other system h
  rw [runSchedule_eq_afterSchedule, runSchedule_eq_afterSchedule, afterSchedule_perm h]

/-! ### The byte view -/

theorem byteOf_toNat (v : Word) (j : Nat) : (byteOf v j).toNat = v.toNat / 256 ^ j % 256 := by
  rw [byteOf, BitVec.extractLsb'_toNat, Nat.shiftRight_eq_div_pow, Nat.pow_mul]

/-- The bytes of v from byte `i` on carry that part of the number v (R38): the first byte is its remainder
modulo 256, the others its quotient. -/
theorem bytesValue_range' (v : Word) (i n : Nat) :
    bytesValue ((List.range' i n).map (byteOf v)) = v.toNat / 256 ^ i % 256 ^ n := by
  induction n generalizing i with
  | zero => simp [bytesValue, Nat.mod_one]
  | succ n ih =>
    calc bytesValue ((List.range' i (n + 1)).map (byteOf v))
        = v.toNat / 256 ^ i % 256 + 256 * (v.toNat / 256 ^ (i + 1) % 256 ^ n) := by
          simp [List.range'_succ, bytesValue, ih, byteOf_toNat]
      _ = v.toNat / 256 ^ i % 256 + 256 * (v.toNat / 256 ^ i / 256 % 256 ^ n) := by
          rw [Nat.pow_succ, Nat.div_div_eq_div_mul]
      _ = v.toNat / 256 ^ i % 256 ^ (n + 1) := by rw [Nat.pow_succ', Nat.mod_mul]

theorem bytesValue_toBytes (v : Word) : bytesValue (toBytes v) = v.toNat := by
  have hlt : v.toNat < 256 ^ 16 := v.isLt
  rw [toBytes, List.range_eq_range', bytesValue_range', Nat.pow_zero, Nat.div_one, Nat.mod_eq_of_lt hlt]

theorem fromBytes_toBytes (v : Word) : fromBytes (toBytes v) = v := by
  rw [fromBytes, bytesValue_toBytes, BitVec.ofNat_toNat, BitVec.setWidth_eq]

theorem toBytes_length (v : Word) : (toBytes v).length = 16 := by simp [toBytes]

theorem toBytes_getElem? (v : Word) {j : Nat} (h : j < 16) : (toBytes v)[j]? = some (byteOf v j) := by
  simp [toBytes, h]

/-- Settles O27. -/
theorem byteViewIsLossless : Obligations.ByteViewIsLossless := fun v =>
  ⟨toBytes_length v, fromBytes_toBytes v, fun _ h => toBytes_getElem? v h⟩

end Sys2Proof.Machine
end

section
/-! PROOFS. The statements of 30_encoding.md: the encoder and the decoder are inverse to each other, which
words are illegal, and what the result and operand ports of a command carry. -/

namespace Sys2Proof

/-! ### The fields of a command -/

theorem opcode_bounds (i : Instr) : 1 ≤ i.opcode ∧ i.opcode ≤ 8 := by
  cases i <;> simp [Instr.opcode]

/-- A command is well-formed exactly when its immediate fits K (R48, R51). -/
theorem wellFormed_iff (i : Instr) : i.wellFormed = true ↔ i.immediate < 256 := by
  cases i <;> simp [Instr.wellFormed, Instr.immediate]

/-- The pairs of OP and K that are a command's: K is 0 but for POW10 and DIVIDE (R52, R53). -/
theorem exists_instr_iff (op k : Nat) :
    (∃ i : Instr, op = i.opcode ∧ k = i.immediate) ↔ 1 ≤ op ∧ op ≤ 8 ∧ (k = 0 ∨ op = 4 ∨ op = 5) := by
  constructor
  · rintro ⟨i, rfl, rfl⟩
    cases i <;> simp [Instr.opcode, Instr.immediate]
  · rintro ⟨hlow, hhigh, hk⟩
    interval_cases op
    · exact ⟨.abs128, rfl, by simpa [Instr.immediate] using hk⟩
    · exact ⟨.mul128, rfl, by simpa [Instr.immediate] using hk⟩
    · exact ⟨.div256, rfl, by simpa [Instr.immediate] using hk⟩
    · exact ⟨.pow10 k, rfl, rfl⟩
    · exact ⟨.divide k, rfl, rfl⟩
    · exact ⟨.divtype, rfl, by simpa [Instr.immediate] using hk⟩
    · exact ⟨.sumtype, rfl, by simpa [Instr.immediate] using hk⟩
    · exact ⟨.avgtype, rfl, by simpa [Instr.immediate] using hk⟩

/-! ### Decoding and encoding -/

/-- Decoding is the inverse of encoding: a word decodes to `i` exactly when it is the word of the
well-formed command `i` (R48, R52). -/
theorem decode_eq_ok_iff_encode (w : CmdWord) (i : Instr) :
    decode w = .ok i ↔ i.wellFormed = true ∧ encode i = w := by
  constructor
  · intro hdecode
    obtain ⟨hrsv1, hrsv0, hop, hk⟩ := (decode_eq_ok_iff w i).1 hdecode
    have hwf : i.wellFormed = true := (wellFormed_iff i).2 (by omega)
    refine ⟨hwf, BitVec.eq_of_toNat_eq ?_⟩
    rw [encode_toNat hwf]
    omega
  · rintro ⟨hwf, rfl⟩
    have himm : i.immediate < 256 := (wellFormed_iff i).1 hwf
    have hop := opcode_bounds i
    rw [decode_eq_ok_iff, encode_toNat hwf]
    omega

/-- Settles O1. -/
theorem decodeOfEncodeIsTheCommand : Obligations.DecodeOfEncodeIsTheCommand := fun i hwf =>
  (decode_eq_ok_iff_encode (encode i) i).2 ⟨hwf, rfl⟩

/-- Settles O2. -/
theorem legalWordIsTheEncodingOfItsCommand : Obligations.LegalWordIsTheEncodingOfItsCommand := fun w i =>
  (decode_eq_ok_iff_encode w i).1

/-- The opcode-table row that holds the word of a command reads back as that command. -/
theorem decodeTableWord_encode {i : Instr} (hwf : i.wellFormed = true) :
    decodeTableWord 32 (encode i).toNat = some i := by
  have hword : tableWord 32 (encode i).toNat = encode i := by
    rw [tableWord, Nat.mod_eq_of_lt (encode i).isLt, BitVec.ofNat_toNat, BitVec.setWidth_eq]
  rw [Machine.decodeTableWord_eq_some_iff, hword]
  exact decodeOfEncodeIsTheCommand i hwf

/-- Settles O5: each of the eight words is the encoding of its command. -/
theorem workedEncodingsDecode : Obligations.WorkedEncodingsDecode :=
  ⟨decodeTableWord_encode (i := .abs128) rfl, decodeTableWord_encode (i := .mul128) rfl,
    decodeTableWord_encode (i := .div256) rfl, decodeTableWord_encode (i := .pow10 19) rfl,
    decodeTableWord_encode (i := .divide 8) rfl, decodeTableWord_encode (i := .divtype) rfl,
    decodeTableWord_encode (i := .sumtype) rfl, decodeTableWord_encode (i := .avgtype) rfl⟩

/-! ### The opcode map -/

/-- The mask of the rows with K drops CMD[15:8] and keeps every other bit (R53). -/
theorem and_kMask_toNat (w : CmdWord) :
    (w &&& 0xFFFF00FF#32).toNat = w.toNat / 65536 * 65536 + w.toNat % 256 := by
  have hlt := w.isLt
  have hlow : (w.toNat &&& 0xFFFF00FF) % 2 ^ 8 = w.toNat % 2 ^ 8 := by
    rw [Nat.and_mod_two_pow]
    exact Nat.and_two_pow_sub_one_of_lt_two_pow (n := 8) (Nat.mod_lt _ (by norm_num))
  have hmid : (w.toNat &&& 0xFFFF00FF) / 2 ^ 8 % 2 ^ 8 = 0 := by
    rw [Nat.and_div_two_pow, Nat.and_mod_two_pow]
    exact Nat.and_zero _
  have hhigh : (w.toNat &&& 0xFFFF00FF) / 2 ^ 16 = w.toNat / 2 ^ 16 := by
    rw [Nat.and_div_two_pow]
    exact Nat.and_two_pow_sub_one_of_lt_two_pow (n := 16) (by omega)
  rw [BitVec.toNat_and]
  change w.toNat &&& 0xFFFF00FF = _
  omega

/-- A row without K: the mask covers the whole word, which is the match, the command's encoding (R53). -/
theorem decode_eq_ok_iff_fullMask {i : Instr} (hwf : i.wellFormed = true) (w : CmdWord) :
    decode w = .ok i ↔ w &&& 0xFFFFFFFF#32 = encode i := by
  have hmask : w &&& 0xFFFFFFFF#32 = w := BitVec.and_allOnes
  rw [decode_eq_ok_iff_encode, hmask, eq_comm (a := w)]
  exact and_iff_right hwf

/-- A row with K: the mask leaves CMD[15:8] open, which is the command's immediate (R51, R53). -/
theorem decode_eq_ok_iff_kMask (i : Instr) (w : CmdWord) :
    decode w = .ok i ↔
      w &&& 0xFFFF00FF#32 = BitVec.ofNat 32 i.opcode ∧ i.immediate = w.toNat / 256 % 256 := by
  have hop := opcode_bounds i
  have hlt := w.isLt
  rw [decode_eq_ok_iff, ← BitVec.toNat_inj, and_kMask_toNat, BitVec.toNat_ofNat]
  omega

/-- A word is illegal exactly when it decodes to no command (R52). -/
theorem exists_error_iff (w : CmdWord) :
    (∃ why, decode w = .error why) ↔ ¬ ∃ i, decode w = .ok i := by
  cases decode w <;> simp

/-- The illegal words by the fields they get wrong (R54). -/
theorem illegal_iff (w : CmdWord) :
    (∃ why, decode w = .error why) ↔
      (w.toNat % 32 = 0 ∨ 9 ≤ w.toNat % 32 ∨ w.toNat / 32 % 8 ≠ 0 ∨ w.toNat / 65536 ≠ 0 ∨
        (w.toNat / 256 % 256 ≠ 0 ∧ w.toNat % 32 ≠ 4 ∧ w.toNat % 32 ≠ 5)) := by
  simp only [exists_error_iff, decode_eq_ok_iff, exists_and_left, exists_instr_iff]
  omega

/-- Settles O3: a row is the encoding of its command under the mask, and a word with a reserved OP is
illegal. -/
theorem opcodeMapByMatchAndMask : Obligations.OpcodeMapByMatchAndMask := fun w =>
  ⟨decode_eq_ok_iff_fullMask (i := .abs128) rfl w, decode_eq_ok_iff_fullMask (i := .mul128) rfl w,
    decode_eq_ok_iff_fullMask (i := .div256) rfl w, fun k => decode_eq_ok_iff_kMask (.pow10 k) w,
    fun k => decode_eq_ok_iff_kMask (.divide k) w, decode_eq_ok_iff_fullMask (i := .divtype) rfl w,
    decode_eq_ok_iff_fullMask (i := .sumtype) rfl w, decode_eq_ok_iff_fullMask (i := .avgtype) rfl w,
    fun hop => (illegal_iff w).2 (by omega)⟩

namespace Machine

theorem completeEdge_of_illegal {s : State} {why : Illegal} (h : decode s.held.cmd = .error why) :
    completeEdge s = .next (s.complete (.raise .illegal)) := by
  simp [completeEdge, State.fetch, h, execIllegal]

/-- Settles O4: completing an illegal word raises ILLEGAL, whatever the word gets wrong. -/
theorem illegalWordsAllEndIllegal : Obligations.IllegalWordsAllEndIllegal := by
  refine ⟨illegal_iff, (illegal_iff 0#32).2 (.inl rfl), fun s why hdecode => ?_⟩
  rw [completeEdge_of_illegal hdecode]
  exact endsWithCode_raise s .illegal

/-! ### The results of a command that ends OK -/

/-- A command that ends OK has finished with the two results its response holds (R12, R33). -/
theorem exec_eq_next_ok {i : Instr} {s t : State} (hexec : exec i s = .next t)
    (hok : t.resp.status = 0x00) :
    ∃ res0 res1, commandResult s.digitCheck s.rom s.held i = .finish res0 res1 ∧
      t = s.endedOk res0 res1 := by
  rw [exec_eq_complete] at hexec
  cases hexec
  cases hresult : commandResult s.digitCheck s.rom s.held i with
  | finish res0 res1 => exact ⟨res0, res1, rfl, rfl⟩
  | raise f =>
    rw [hresult] at hok
    exact absurd hok (raise_status_ne_ok s f)

theorem pow10Result_eq_finish_iff (rom : Vector Word 39) (k : Nat) (res0 res1 : Word) :
    pow10Result rom k = .finish res0 res1 ↔ romRead rom k = some res0 ∧ res1 = 0 := by
  unfold pow10Result
  cases romRead rom k with
  | none => simp
  | some v => rw [Result.finish.injEq, Option.some.injEq, eq_comm (a := res1)]

theorem signedQuotient_eq_finish_iff (digitCheck : Bool) (a b : Word) (q : Nat) (res0 res1 : Word) :
    signedQuotient digitCheck a b q = .finish res0 res1 ↔
      fitsI128 (applySign a b q) = true ∧ (digitCheck = true → q < digitBound) ∧
        res0 = enc128 (applySign a b q) ∧ res1 = 0 := by
  unfold signedQuotient
  cases fitsI128 (applySign a b q) with
  | false => simp
  | true =>
    cases digitCheck with
    | false => simp [eq_comm (a := res0), eq_comm (a := res1)]
    | true =>
      by_cases hdigits : digitBound ≤ q
      · simp [hdigits]
      · simp [hdigits, Nat.lt_of_not_le hdigits, eq_comm (a := res0), eq_comm (a := res1)]

/-- DIVIDE finishes only past all its checks, with a signed quotient (R84). -/
theorem divideResult_eq_finish {digitCheck : Bool} {rom : Vector Word 39} {k : Nat} {a b res0 res1 : Word}
    (h : divideResult digitCheck rom k a b = .finish res0 res1) :
    ∃ pow, romRead rom k = some pow ∧
      signedQuotient digitCheck a b (quotientMagnitude a b k pow) = .finish res0 res1 := by
  unfold divideResult at h
  split at h
  · cases h
  split at h
  · cases h
  next pow hpow =>
    split at h
    · cases h
    · exact ⟨pow, hpow, h⟩

theorem typeResult_eq_finish_iff (rule : Descriptor → Descriptor) (a res0 res1 : Word) :
    typeResult rule a = .finish res0 res1 ↔
      ∃ d, readDescriptor a = some d ∧ res0 = descriptorPattern (rule d) ∧ res1 = 0 := by
  unfold typeResult
  cases readDescriptor a with
  | none => simp
  | some d => simp [eq_comm (a := res0), eq_comm (a := res1)]

theorem divtypeResult_eq_finish_iff (a b res0 res1 : Word) :
    divtypeResult a b = .finish res0 res1 ↔
      ∃ d1 d2, readDescriptor a = some d1 ∧ readDescriptor b = some d2 ∧
        res0 = descriptorPattern (divisionType d1 d2) ∧ res1 = enc128 (scaleAdjustment d1 d2) := by
  unfold divtypeResult
  cases readDescriptor a with
  | none => simp
  | some d1 =>
    cases readDescriptor b with
    | none => simp
    | some d2 => simp [eq_comm (a := res0), eq_comm (a := res1)]

/-- The commands with one result finish with 0 as the other (R50). -/
theorem res1_eq_zero_of_commandResult {digitCheck : Bool} {rom : Vector Word 39} {c : Command} {i : Instr}
    {res0 res1 : Word} (hmul : i ≠ .mul128) (hdiv : i ≠ .div256) (htype : i ≠ .divtype)
    (h : commandResult digitCheck rom c i = .finish res0 res1) : res1 = 0 := by
  cases i with
  | abs128 => cases h; rfl
  | mul128 => exact absurd rfl hmul
  | div256 => exact absurd rfl hdiv
  | pow10 k => exact ((pow10Result_eq_finish_iff rom k res0 res1).1 h).2
  | divide k =>
    obtain ⟨pow, -, hquotient⟩ := divideResult_eq_finish h
    obtain ⟨-, -, -, hres1⟩ := (signedQuotient_eq_finish_iff _ _ _ _ _ _).1 hquotient
    exact hres1
  | divtype => exact absurd rfl htype
  | sumtype =>
    obtain ⟨d, -, -, hres1⟩ := (typeResult_eq_finish_iff sumType _ _ _).1 h
    exact hres1
  | avgtype =>
    obtain ⟨d, -, -, hres1⟩ := (typeResult_eq_finish_iff avgType _ _ _).1 h
    exact hres1

/-- Settles O20. -/
theorem oneResultCommandsClearRes1 : Obligations.OneResultCommandsClearRes1 := by
  intro i s t hmul hdiv htype hexec hok
  obtain ⟨res0, res1, hresult, rfl⟩ := exec_eq_next_ok hexec hok
  exact res1_eq_zero_of_commandResult hmul hdiv htype hresult

/-! ### Result descriptors -/

/-- A descriptor is valid: s <= p <= 38 (R56). -/
def Descriptor.Valid (d : Descriptor) : Prop := d.scale ≤ d.precision ∧ d.precision ≤ 38

theorem valid_of_readDescriptor {v : Word} {d : Descriptor} (h : readDescriptor v = some d) : d.Valid :=
  ((readDescriptor_eq_some_iff v d).1 h).2

/-- Only a valid descriptor is what its pattern packs as an operand does (R56, R57). -/
theorem descriptorIs_descriptorPattern_iff (d : Descriptor) :
    DescriptorIs (descriptorPattern d) d.precision d.scale ↔ d.Valid := by
  simp only [DescriptorIs, Descriptor.Valid, descriptorPattern, packDescriptor, BitVec.toNat_ofNat]
  omega

/-- The cap of R95 leaves a scale of at most 38, the precision it comes with. -/
theorem cappedScale_le (rs intDigits : Nat) : cappedScale rs intDigits ≤ maxPrecision := by
  unfold cappedScale
  split <;> simp [maxPrecision, minDivisionScale]

/-- R98: the precision counts the scale's digits where it is not capped, and is 38 where it is. -/
theorem divisionType_valid (d1 d2 : Descriptor) : (divisionType d1 d2).Valid := by
  unfold divisionType
  split
  · exact ⟨cappedScale_le _ _, le_rfl⟩
  next h => exact ⟨Nat.le_add_left _ _, Nat.le_of_not_lt h⟩

/-- R100: a sum keeps the scale, and its precision never falls below it. -/
theorem sumType_valid {d : Descriptor} (h : d.Valid) : (sumType d).Valid := by
  obtain ⟨hscale, hprecision⟩ := h
  exact ⟨le_min (hscale.trans (Nat.le_add_right _ _)) (hscale.trans hprecision), min_le_right _ _⟩

/-- R102: the last cap of an average's scale is its precision. -/
theorem avgType_valid (d : Descriptor) : (avgType d).Valid := ⟨min_le_right _ _, min_le_right _ _⟩

/-- A type command that finishes writes a valid descriptor (R57). -/
theorem exists_valid_of_commandResult {digitCheck : Bool} {rom : Vector Word 39} {c : Command} {i : Instr}
    {res0 res1 : Word} (hi : i = .divtype ∨ i = .sumtype ∨ i = .avgtype)
    (h : commandResult digitCheck rom c i = .finish res0 res1) :
    ∃ d : Descriptor, d.Valid ∧ res0 = descriptorPattern d := by
  obtain rfl | rfl | rfl := hi
  · obtain ⟨d1, d2, -, -, hres0, -⟩ := (divtypeResult_eq_finish_iff _ _ _ _).1 h
    exact ⟨_, divisionType_valid d1 d2, hres0⟩
  · obtain ⟨d, hread, hres0, -⟩ := (typeResult_eq_finish_iff sumType _ _ _).1 h
    exact ⟨_, sumType_valid (valid_of_readDescriptor hread), hres0⟩
  · obtain ⟨d, -, hres0, -⟩ := (typeResult_eq_finish_iff avgType _ _ _).1 h
    exact ⟨_, avgType_valid d, hres0⟩

/-- Settles O45: the three types are valid descriptors, and a valid descriptor's pattern is an operand's. -/
theorem resultDescriptorsAreValid : Obligations.ResultDescriptorsAreValid := by
  intro i s t hi hexec hok
  obtain ⟨res0, res1, hresult, rfl⟩ := exec_eq_next_ok hexec hok
  obtain ⟨d, hvalid, rfl⟩ := exists_valid_of_commandResult hi hresult
  have hpacked : DescriptorIs (descriptorPattern d) d.precision d.scale :=
    (descriptorIs_descriptorPattern_iff d).2 hvalid
  exact ⟨d.precision, d.scale, hpacked, (readDescriptor_eq_some_iff _ d).2 hpacked⟩

/-! ### Ports that are not read -/

/-- Two states in which a command completes with the same result give the same response. -/
theorem sameResponse_exec {i : Instr} {s t : State}
    (h : commandResult s.digitCheck s.rom s.held i = commandResult t.digitCheck t.rom t.held i) :
    SameResponse (exec i s) (exec i t) := by
  rw [exec_eq_complete, exec_eq_complete, h]
  exact sameResponse_complete s t _

/-- Settles O22: the result of a command is a function of the ports it reads, so each equation holds by
the definition of `commandResult`. -/
theorem unreadPortsAreIgnored : Obligations.UnreadPortsAreIgnored := fun _ _ _ _ _ =>
  ⟨sameResponse_exec rfl, sameResponse_exec rfl, sameResponse_exec rfl, sameResponse_exec rfl,
    sameResponse_exec rfl, sameResponse_exec rfl, sameResponse_exec rfl⟩

end Machine

end Sys2Proof
end

section
/-! PROOFS. The statements of 40_wideint.md: ABS128's magnitude pattern is |s(A)|, and a pattern and its two
limbs carry the same signed value. -/

namespace Sys2Proof.Machine

/-! ### The magnitude pattern -/

theorem magnitudePattern_toNat (a : Word) : ((magnitudePattern a).toNat : Int) = |a.toInt| := by
  have hvalue : (magnitudePattern a).toNat = a.toInt.natAbs := magnitude_eq a
  rw [hvalue, Int.natCast_natAbs]

/-- R63's form of the pattern is R64's: the signed value's magnitude, written as an unsigned number. -/
theorem ofInt_abs_toInt (a : Word) : BitVec.ofInt 128 |a.toInt| = magnitudePattern a := by
  rw [← magnitudePattern_toNat, BitVec.ofInt_natCast, BitVec.ofNat_toNat, BitVec.setWidth_eq]

theorem magnitudePattern_of_nonneg {a : Word} (h : a.msb = false) : magnitudePattern a = a := by
  simp [magnitudePattern, h]

theorem magnitudePattern_toNat_of_neg {a : Word} (h : a.msb = true) :
    (magnitudePattern a).toNat = (2 ^ 128 - a.toNat) % 2 ^ 128 := by
  rw [magnitudePattern, if_pos h, BitVec.toNat_ofNat]

theorem exec_abs128_eq_endedOk (s : State) :
    exec .abs128 s = .next (s.endedOk (magnitudePattern s.held.a) 0) := by
  rw [exec_abs128, abs128, complete_finish]

/-- Settles O25. -/
theorem abs128GivesTheMagnitude : Obligations.Abs128GivesTheMagnitude := by
  refine ⟨decode_eq_ok_iff_fullMask (i := .abs128) rfl, fun s => ?_⟩
  rw [ofInt_abs_toInt]
  exact ⟨exec_abs128_eq_endedOk s, magnitudePattern_toNat s.held.a, magnitudePattern_of_nonneg,
    magnitudePattern_toNat_of_neg⟩

/-! ### The limb view -/

@[simp] theorem fromLimbs_toLimbs (v : Word) : fromLimbs (toLimbs v) = v :=
  calc v.extractLsb' 64 64 ++ v.extractLsb' 0 64
      = v.extractLsb' 0 128 := BitVec.extractLsb'_append_extractLsb'_eq_extractLsb' rfl
    _ = v := BitVec.extractLsb'_eq_self

@[simp] theorem toLimbs_fromLimbs (l : Limbs) : toLimbs (fromLimbs l) = l := by
  rw [toLimbs, fromLimbs, BitVec.extractLsb'_append_eq_right, BitVec.extractLsb'_append_eq_left]

theorem fromLimbs_toInt (l : Limbs) : (fromLimbs l).toInt = limbsValue l := by
  rw [fromLimbs, BitVec.toInt_append, limbsValue, if_neg (by decide), mul_comm]

theorem limbsValue_toLimbs (v : Word) : limbsValue (toLimbs v) = v.toInt := by
  rw [← fromLimbs_toInt, fromLimbs_toLimbs]

/-- The lower limb, being below 2^64, cannot lift a negative upper part to 0 (R66). -/
theorem limbsValue_neg_iff (l : Limbs) : limbsValue l < 0 ↔ l.upper.toInt < 0 := by
  have hlower := l.lower.isLt
  unfold limbsValue
  omega

theorem limbsValue_eq_zero_iff (l : Limbs) :
    limbsValue l = 0 ↔ l.upper.toInt = 0 ∧ l.lower.toNat = 0 := by
  have hlower := l.lower.isLt
  unfold limbsValue
  omega

/-- Settles O26: sign and zero are read off the value, which the two limbs carry. -/
theorem limbViewIsLossless : Obligations.LimbViewIsLossless := by
  intro v l
  have hvalue := limbsValue_toLimbs v
  refine ⟨rfl, rfl, fromLimbs_toLimbs v, toLimbs_fromLimbs l, hvalue, ?_, ?_⟩
  · rw [← hvalue, limbsValue_neg_iff]
  · rw [← hvalue, limbsValue_eq_zero_iff]

end Sys2Proof.Machine
end

section
/-! PROOFS. The statements of 41_wide256.md: the exact product and the schoolbook multiply that computes it,
the wide division with its faults, and the binary long division that computes it. -/

namespace Sys2Proof.Machine

/-! ### Multiplication -/

/-- A number has one pair of halves (R39). -/
theorem uint256Value_injective : Function.Injective uint256Value := by
  rintro ⟨hi, lo⟩ ⟨hi', lo'⟩ hvalue
  have hlo := lo.isLt
  have hlo' := lo'.isLt
  simp only [uint256Value] at hvalue
  obtain rfl : hi = hi' := BitVec.eq_of_toNat_eq (by omega)
  obtain rfl : lo = lo' := BitVec.eq_of_toNat_eq (by omega)
  rfl

theorem uint256Value_mul128 (a b : Word) : uint256Value (mul128 a b) = a.toNat * b.toNat :=
  uint256Value_ofNat (product_lt a b)

theorem exec_mul128_eq_endedOk (s : State) :
    exec .mul128 s =
      .next (s.endedOk (mul128 s.held.a s.held.b).lo (mul128 s.held.a s.held.b).hi) := by
  rw [exec_mul128, mulResult, complete_finish]

/-- Settles O28: the two results are the halves of the product. -/
theorem mul128GivesTheExactProduct : Obligations.Mul128GivesTheExactProduct :=
  ⟨decode_eq_ok_iff_fullMask (i := .mul128) rfl,
    fun s => ⟨_, _, exec_mul128_eq_endedOk s, uint256Value_mul128 s.held.a s.held.b⟩⟩

theorem mulResult_comm (a b : Word) : mulResult a b = mulResult b a := by
  rw [mulResult, mulResult, mul128, mul128, Nat.mul_comm]

/-- Settles O29: the result is the same function of the two operands in either order, and the largest
product is that of the largest operands. -/
theorem mul128CommutesWithoutWrapping : Obligations.Mul128CommutesWithoutWrapping := by
  refine ⟨fun s => sameResponse_exec (mulResult_comm s.held.a s.held.b), by norm_num, fun a b => ?_⟩
  rw [Nat.pow_two]
  exact Nat.mul_le_mul (Nat.le_sub_one_of_lt a.isLt) (Nat.le_sub_one_of_lt b.isLt)

/-! ### The schoolbook multiply -/

theorem limbsUnsigned_toLimbs (v : Word) : limbsUnsigned (toLimbs v) = v.toNat := by
  have hlt := v.isLt
  simp only [limbsUnsigned, toLimbs, BitVec.extractLsb'_toNat, Nat.shiftRight_eq_div_pow]
  omega

/-- A product of two limbs fits in 128 bits, so a partial product is exact (R68). -/
theorem partialProduct_toNat (x y : Limb) : (partialProduct x y).toNat = x.toNat * y.toNat := by
  have hlt : x.toNat * y.toNat < 2 ^ 64 * 2 ^ 64 := Nat.mul_lt_mul'' x.isLt y.isLt
  rw [partialProduct, BitVec.toNat_ofNat, Nat.mod_eq_of_lt (hlt.trans_eq (by norm_num))]

theorem carryOf_toNat (sum addend : Word) :
    (carryOf sum addend).toNat = if sum.toNat < addend.toNat then 1 else 0 := by
  rw [carryOf, apply_ite BitVec.toNat]
  rfl

theorem carryOf_le_one (sum addend : Word) : (carryOf sum addend).toNat ≤ 1 := by
  rw [carryOf_toNat]
  split <;> omega

/-- The compared carry is what the sum modulo 2^128 loses (R68). -/
theorem toNat_add_carryOf (x y : Word) :
    (x + y).toNat + 2 ^ 128 * (carryOf (x + y) x).toNat = x.toNat + y.toNat := by
  have hx := x.isLt
  have hy := y.isLt
  rw [carryOf_toNat, BitVec.toNat_add]
  split <;> omega

/-- The lower limb, moved up. -/
theorem and_shiftLeft_toNat (v : Word) :
    ((v &&& 0xFFFFFFFFFFFFFFFF) <<< 64).toNat = v.toNat % 2 ^ 64 * 2 ^ 64 := by
  have hlow : (v &&& 0xFFFFFFFFFFFFFFFF).toNat = v.toNat % 2 ^ 64 :=
    Nat.and_two_pow_sub_one_eq_mod v.toNat 64
  rw [BitVec.toNat_shiftLeft, hlow, Nat.shiftLeft_eq]
  omega

theorem shiftRight_toNat (v : Word) : (v >>> 64).toNat = v.toNat / 2 ^ 64 := by
  rw [BitVec.toNat_ushiftRight, Nat.shiftRight_eq_div_pow]

theorem carryOf_shiftLeft_toNat (sum addend : Word) :
    (carryOf sum addend <<< 64).toNat = (carryOf sum addend).toNat * 2 ^ 64 := by
  have hle := carryOf_le_one sum addend
  rw [BitVec.toNat_shiftLeft, Nat.shiftLeft_eq]
  omega

/-- The carry chain of the schoolbook multiply on any four partial products: the second and the third
stand 64 places up, the fourth 128 (R68). -/
def addColumns (p00 p01 p10 p11 : Word) : UInt256 :=
  let mid := p01 + p10
  let lo := p00 + ((mid &&& 0xFFFFFFFFFFFFFFFF) <<< 64)
  { hi := p11 + (mid >>> 64) + (carryOf mid p01 <<< 64) + carryOf lo p00, lo := lo }

theorem mulSchoolbook_eq_addColumns (a b : Word) :
    mulSchoolbook a b =
      addColumns (partialProduct (toLimbs a).lower (toLimbs b).lower)
        (partialProduct (toLimbs a).lower (toLimbs b).upper)
        (partialProduct (toLimbs a).upper (toLimbs b).lower)
        (partialProduct (toLimbs a).upper (toLimbs b).upper) := rfl

/-- The two compared carries are all that the lower half loses, and below 2^256 the upper half loses
nothing. -/
theorem uint256Value_addColumns {p00 p01 p10 p11 : Word} {n : Nat} (hlt : n < 2 ^ 256)
    (hn : p00.toNat + (p01.toNat + p10.toNat) * 2 ^ 64 + p11.toNat * 2 ^ 128 = n) :
    uint256Value (addColumns p00 p01 p10 p11) = n := by
  have hmid := toNat_add_carryOf p01 p10
  have hlo := toNat_add_carryOf p00 (((p01 + p10) &&& 0xFFFFFFFFFFFFFFFF) <<< 64)
  rw [and_shiftLeft_toNat] at hlo
  simp only [uint256Value, addColumns]
  rw [BitVec.toNat_add, BitVec.toNat_add, BitVec.toNat_add, shiftRight_toNat, carryOf_shiftLeft_toNat]
  omega

/-- The four partial products, each at its place, add up to the product (R68). -/
theorem uint256Value_mulSchoolbook (a b : Word) :
    uint256Value (mulSchoolbook a b) = a.toNat * b.toNat := by
  rw [mulSchoolbook_eq_addColumns]
  refine uint256Value_addColumns (product_lt a b) ?_
  simp only [partialProduct_toNat]
  rw [← limbsUnsigned_toLimbs a, ← limbsUnsigned_toLimbs b, limbsUnsigned, limbsUnsigned]
  ring

/-- Settles O30: equal numbers have equal halves. -/
theorem schoolbookMultiplyIsExact : Obligations.SchoolbookMultiplyIsExact := fun a b =>
  have hvalue := uint256Value_mulSchoolbook a b
  ⟨hvalue, uint256Value_injective (hvalue.trans (uint256Value_mul128 a b).symm)⟩

/-! ### Wide division -/

theorem divResult_of_zero {num : UInt256} {den : Word} (h : den.toNat = 0) :
    divResult num den = .raise .divZero := if_pos h

theorem divResult_of_overflow {num : UInt256} {den : Word} (h : den.toNat ≠ 0)
    (hle : den.toNat ≤ num.hi.toNat) : divResult num den = .raise .quotOvf := by
  rw [divResult, if_neg h, if_pos hle]

theorem divResult_of_legal {num : UInt256} {den : Word} (h : num.hi.toNat < den.toNat) :
    divResult num den = .finish (wideQuotient num den) (wideRemainder num den) := by
  rw [divResult, if_neg (Nat.ne_zero_of_lt h), if_neg (Nat.not_le_of_lt h)]

/-- The quotient fits in 128 bits exactly when the high half is below the divisor (R71). -/
theorem quotient_lt_iff {num : UInt256} {den : Word} (h : den.toNat ≠ 0) :
    uint256Value num / den.toNat < 2 ^ 128 ↔ num.hi.toNat < den.toNat := by
  have hlo := num.lo.isLt
  rw [Nat.div_lt_iff_lt_mul (Nat.pos_of_ne_zero h), uint256Value]
  omega

theorem wideQuotient_toNat {num : UInt256} {den : Word} (h : num.hi.toNat < den.toNat) :
    (wideQuotient num den).toNat = uint256Value num / den.toNat := by
  rw [wideQuotient, BitVec.toNat_ofNat,
    Nat.mod_eq_of_lt ((quotient_lt_iff (Nat.ne_zero_of_lt h)).2 h)]

theorem wideRemainder_toNat {num : UInt256} {den : Word} (h : 0 < den.toNat) :
    (wideRemainder num den).toNat = uint256Value num % den.toNat := by
  rw [wideRemainder, BitVec.toNat_ofNat, Nat.mod_eq_of_lt ((Nat.mod_lt _ h).trans den.isLt)]

/-- The numerator of DIV256: C is its high half, A its low one (R39, R49). -/
def State.numerator (s : State) : UInt256 := { hi := s.held.c, lo := s.held.a }

theorem exec_div256_numerator (s : State) :
    exec .div256 s = .next (s.complete (divResult s.numerator s.held.b)) := exec_div256 s

theorem exec_div256_of_legal {s : State} (h : s.held.c.toNat < s.held.b.toNat) :
    exec .div256 s =
      .next (s.endedOk (wideQuotient s.numerator s.held.b) (wideRemainder s.numerator s.held.b)) := by
  rw [exec_div256_numerator, divResult_of_legal h, complete_finish]

/-- Settles O31: the three cases of the divisor, and the bound that tells the last two apart. -/
theorem div256DividesExactly : Obligations.Div256DividesExactly := by
  refine ⟨decode_eq_ok_iff_fullMask (i := .div256) rfl, fun s =>
    ⟨fun hzero => ?_, fun hne hle => ?_, fun hlt => ?_, quotient_lt_iff (num := s.numerator)⟩⟩
  · rw [exec_div256_numerator, divResult_of_zero hzero]
    exact endsWithCode_raise s .divZero
  · rw [exec_div256_numerator, divResult_of_overflow hne hle]
    exact endsWithCode_raise s .quotOvf
  · have hpos : 0 < s.held.b.toNat := Nat.zero_lt_of_lt hlt
    refine ⟨_, _, exec_div256_of_legal hlt, ?_, ?_⟩
    · rw [wideQuotient_toNat hlt, wideRemainder_toNat hpos]
      exact (Nat.div_add_mod' (uint256Value s.numerator) s.held.b.toNat).symm
    · rw [wideRemainder_toNat hpos]
      exact Nat.mod_lt _ hpos

/-! ### The binary long division -/

/-- One turn of the loop: the next bit of the numerator enters the remainder, and the divisor is taken off
once where it fits. -/
theorem longDivideLoop_succ (num den bits rem q : Nat) :
    longDivideLoop num den (bits + 1) (rem, q) =
      if den ≤ 2 * rem + num / 2 ^ bits % 2 then
        longDivideLoop num den bits (2 * rem + num / 2 ^ bits % 2 - den, 2 * q + 1)
      else longDivideLoop num den bits (2 * rem + num / 2 ^ bits % 2, 2 * q) := by
  rw [longDivideLoop, Nat.shiftRight_eq_div_pow]

/-- The loop's invariant: the accumulator holds remainder and quotient of the bits consumed so far. -/
theorem longDivideLoop_of_consumed (num : Nat) {den : Nat} (hden : 0 < den) (bits : Nat) :
    longDivideLoop num den bits (num / 2 ^ bits % den, num / 2 ^ bits / den) =
      (num % den, num / den) := by
  induction bits with
  | zero => simp [longDivideLoop]
  | succ bits ih =>
    have hconsumed : num / 2 ^ (bits + 1) = num / 2 ^ bits / 2 := by
      rw [Nat.pow_succ, Nat.div_div_eq_div_mul]
    rw [longDivideLoop_succ, hconsumed, ← ih]
    generalize num / 2 ^ bits = n
    have hsplit := Nat.div_add_mod (n / 2) den
    have hlt := Nat.mod_lt (n / 2) hden
    generalize n / 2 / den = q at *
    generalize n / 2 % den = r at *
    split
    · next hfits =>
      obtain ⟨hquot, hrem⟩ : n / den = 2 * q + 1 ∧ n % den = 2 * r + n % 2 - den :=
        (Nat.div_mod_unique hden).2 ⟨by rw [Nat.mul_add, Nat.mul_left_comm]; omega, by omega⟩
      rw [hquot, hrem]
    · next hsmall =>
      obtain ⟨hquot, hrem⟩ : n / den = 2 * q ∧ n % den = 2 * r + n % 2 :=
        (Nat.div_mod_unique hden).2 ⟨by rw [Nat.mul_left_comm]; omega, by omega⟩
      rw [hquot, hrem]

theorem uint256Value_lt (v : UInt256) : uint256Value v < 2 ^ 256 := by
  have hhi := v.hi.isLt
  have hlo := v.lo.isLt
  unfold uint256Value
  omega

/-- Before the first of the 256 bits the consumed part is 0, as the accumulator says (R72). -/
theorem longDivide_eq (num : UInt256) {den : Word} (h : 0 < den.toNat) :
    longDivide num den = (uint256Value num / den.toNat, uint256Value num % den.toNat) := by
  have hloop := longDivideLoop_of_consumed (uint256Value num) h 256
  rw [Nat.div_eq_of_lt (uint256Value_lt num), Nat.zero_mod, Nat.zero_div] at hloop
  rw [longDivide, hloop]

/-- Settles O32: the loop computes the quotient and remainder that DIV256 is defined by. -/
theorem longDivisionIsExact : Obligations.LongDivisionIsExact := by
  intro num den hpos hlt
  rw [longDivide_eq num hpos]
  exact ⟨rfl, (quotient_lt_iff hpos.ne').2 hlt, divResult_of_legal hlt⟩

/-! ### The round trip -/

/-- Dividing a product by its first factor is legal and exact (R73). -/
theorem divResult_mul128 {a : Word} (b : Word) (ha : a.toNat ≠ 0) :
    divResult (mul128 a b) a = .finish b 0 := by
  have hquot : uint256Value (mul128 a b) / a.toNat = b.toNat := by
    rw [uint256Value_mul128, Nat.mul_div_cancel_left _ (Nat.pos_of_ne_zero ha)]
  have hrem : uint256Value (mul128 a b) % a.toNat = 0 := by
    rw [uint256Value_mul128, Nat.mul_mod_right]
  have hlegal : (mul128 a b).hi.toNat < a.toNat := (quotient_lt_iff ha).1 (hquot.trans_lt b.isLt)
  rw [divResult_of_legal hlegal, wideQuotient, wideRemainder, hquot, hrem, BitVec.ofNat_toNat,
    BitVec.setWidth_eq]
  rfl

/-- Settles O33: the second command divides the first one's product by its first factor. -/
theorem mulThenDivRoundTrip : Obligations.MulThenDivRoundTrip := by
  refine fun s ha => ⟨_, _, exec_mul128_eq_endedOk s, fun u hc hlo hb => ?_⟩
  rw [exec_div256, hc, hlo, hb, divResult_mul128 s.held.b ha, complete_finish]

end Sys2Proof.Machine
end

section
/-! PROOFS. The statements of 42_pow10.md: no step writes the ROM, the recurrence of its entries, and what
POW10 reads from it. -/

namespace Sys2Proof.Machine

/-! ### The ROM is constant -/

/-- Every way a step can go keeps the two constants of the build (R30, R75). -/
theorem step_keeps_constants {s t : State} (hstep : step s = .next t) :
    t.rom = s.rom ∧ t.digitCheck = s.digitCheck := by
  cases (step_eq_next_iff s t).1 hstep with
  | reset _ => simp
  | powerUp _ _ => simp
  | accept _ _ _ => simp
  | noRequest _ _ _ => simp
  | complete _ _ => simp
  | wait _ _ _ => simp
  | take _ _ _ => simp
  | hold _ _ _ => simp

/-- Settles O16. -/
theorem noStepWritesTheRom : Obligations.NoStepWritesTheRom := ⟨rfl, fun _ _ => step_keeps_constants⟩

/-! ### The table -/

theorem romRead_pow10Rom_of_le {n : Nat} (h : n ≤ 38) :
    romRead pow10Rom n = some (BitVec.ofNat 128 (10 ^ n)) := by
  rw [romRead_pow10Rom, if_pos (Nat.lt_succ_of_le h)]

theorem romRead_pow10Rom_of_gt {n : Nat} (h : 38 < n) : romRead pow10Rom n = none := by
  rw [romRead_pow10Rom, if_neg (Nat.not_lt_of_le h)]

/-- An entry's pattern carries the power of ten unreduced (R80). -/
theorem pow10Entry_toNat {n : Nat} (h : n ≤ 38) : (BitVec.ofNat 128 (10 ^ n)).toNat = 10 ^ n := by
  rw [BitVec.toNat_ofNat, Nat.mod_eq_of_lt (pow10_lt (Nat.lt_succ_of_le h))]

/-- Settles O34: each entry is the power of ten after the entry before it, and 10^38 is below 2^128. -/
theorem pow10TableLaws : Obligations.Pow10TableLaws := by
  refine ⟨fun n hlow hhigh => ?_, romRead_pow10Rom_of_le (by omega), romRead_pow10Rom_of_le (by omega),
    romRead_pow10Rom_of_le le_rfl, by norm_num⟩
  obtain ⟨m, rfl⟩ := Nat.exists_eq_add_of_le' hlow
  have hm : m ≤ 38 := Nat.le_of_succ_le hhigh
  rw [Nat.add_sub_cancel]
  refine ⟨_, _, romRead_pow10Rom_of_le hhigh, romRead_pow10Rom_of_le hm, ?_, ?_⟩
  · rw [pow10Entry_toNat hhigh, pow10Entry_toNat hm, Nat.pow_succ]
  · rw [pow10Entry_toNat hm, ← Nat.pow_succ]
    exact pow10_lt (Nat.lt_succ_of_le hhigh)

/-! ### POW10 -/

theorem pow10Result_of_le {k : Nat} (h : k ≤ 38) :
    pow10Result pow10Rom k = .finish (BitVec.ofNat 128 (10 ^ k)) 0 :=
  (pow10Result_eq_finish_iff _ _ _ _).2 ⟨romRead_pow10Rom_of_le h, rfl⟩

theorem pow10Result_of_gt {k : Nat} (h : 38 < k) : pow10Result pow10Rom k = .raise .pow10Range := by
  rw [pow10Result, romRead_pow10Rom_of_gt h]

/-- Settles O35: with the ROM at its constants, the entry at K is 10^K up to K = 38 and missing above. -/
theorem pow10ReadsTheRom : Obligations.Pow10ReadsTheRom := by
  refine ⟨fun w k => decode_eq_ok_iff_kMask (.pow10 k) w,
    fun s k hrom => ⟨fun hle => ⟨?_, pow10Entry_toNat hle⟩, fun hgt => ?_⟩⟩
  · rw [exec_pow10, hrom, pow10Result_of_le hle, complete_finish]
  · rw [exec_pow10, hrom, pow10Result_of_gt hgt]
    exact endsWithCode_raise s .pow10Range

end Sys2Proof.Machine
end

section
/-! PROOFS. The statements of 43_decimal_divide.md: HALF_UP and its closed form, the document's two paths, the
outcomes of DIVIDE in the order of its checks, and the sign law. -/

namespace Sys2Proof.Machine

/-! ### HALF_UP -/

/-- The rounded quotient is within half a unit of n/d, a midpoint going up (R83). -/
theorem roundHalfUp_within_half (n : Nat) {d : Nat} (hd : 0 < d) :
    2 * (roundHalfUp (n / d) (n % d) d * d) ≤ 2 * n + d ∧
      2 * n < 2 * (roundHalfUp (n / d) (n % d) d * d) + d := by
  have hsplit := Nat.div_add_mod' n d
  have hrem := Nat.mod_lt n hd
  unfold roundHalfUp
  split
  · rw [Nat.add_one_mul (n / d)]
    omega
  · omega

/-- Only one integer is that close, which is the closed form (R83). -/
theorem roundHalfUp_eq_div (n : Nat) {d : Nat} (hd : 0 < d) :
    roundHalfUp (n / d) (n % d) d = (2 * n + d) / (2 * d) := by
  obtain ⟨hlow, hhigh⟩ := roundHalfUp_within_half n hd
  refine (Nat.div_eq_of_lt_le ?_ ?_).symm
  · rwa [Nat.mul_left_comm]
  · rw [Nat.mul_left_comm, Nat.add_one_mul (roundHalfUp _ _ _)]
    omega

/-- Settles O36. -/
theorem roundHalfUpClosedForm : Obligations.RoundHalfUpClosedForm := fun n _ hd =>
  ⟨roundHalfUp_eq_div n hd, roundHalfUp_within_half n hd⟩

theorem le_roundHalfUp (q r d : Nat) : q ≤ roundHalfUp q r d := by
  unfold roundHalfUp
  split <;> omega

/-! ### The signed quotient and the i128 range -/

theorem fitsI128_iff (n : Int) : fitsI128 n = true ↔ -2 ^ 127 ≤ n ∧ n ≤ 2 ^ 127 - 1 := by
  rw [fitsI128, Bool.and_eq_true, decide_eq_true_iff, decide_eq_true_iff]

/-- The sign leaves the magnitude (R89). -/
theorem applySign_natAbs (a b : Word) (q : Nat) : (applySign a b q).natAbs = q := by
  unfold applySign
  split <;> omega

/-- Equal signs keep the magnitude, different signs negate it (R85, R89). -/
theorem applySign_eq (a b : Word) (q : Nat) :
    applySign a b q = if (a.toInt < 0) = (b.toInt < 0) then (q : Int) else -(q : Int) := by
  unfold applySign
  by_cases ha : a.toInt < 0 <;> by_cases hb : b.toInt < 0 <;> simp [ha, hb]

theorem signedQuotient_of_not_fits {a b : Word} {q : Nat} (digitCheck : Bool)
    (h : ¬ fitsI128 (applySign a b q) = true) : signedQuotient digitCheck a b q = .raise .resultOvf := by
  simp [signedQuotient, h]

theorem signedQuotient_of_digits {a b : Word} {q : Nat} (hfits : fitsI128 (applySign a b q) = true)
    (hdigits : digitBound ≤ q) : signedQuotient true a b q = .raise .digitOvf := by
  simp [signedQuotient, hfits, hdigits]

/-- A magnitude of 2^128 or more is no i128 result with either sign (R87, R90). -/
theorem signedQuotient_of_two_pow_le (digitCheck : Bool) (a b : Word) {q : Nat} (h : 2 ^ 128 ≤ q) :
    signedQuotient digitCheck a b q = .raise .resultOvf := by
  refine signedQuotient_of_not_fits digitCheck ?_
  have habs := applySign_natAbs a b q
  rw [fitsI128_iff]
  omega

/-! ### The two paths -/

theorem magnitude_pos {b : Word} (h : b.toInt ≠ 0) : 0 < magnitude b := by
  rw [magnitude_eq]
  exact Int.natAbs_pos.2 h

/-- Off the fast path K is not 0, and MUL128 gives the scaled dividend exactly (R87). -/
theorem uint256Value_mul128_magnitude {a pow : Word} {k : Nat}
    (h : 2 ^ 128 ≤ scaledDividend (magnitude a) k pow) :
    uint256Value (mul128 (magnitudePattern a) pow) = scaledDividend (magnitude a) k pow := by
  have hk : k ≠ 0 := by
    rintro rfl
    have hle := magnitude_le a
    rw [scaledDividend, if_pos rfl] at h
    omega
  rw [uint256Value_mul128, scaledDividend, if_neg hk, magnitude]

/-- Both paths give the exact quotient and remainder, wherever the quotient is below 2^128 (R87). -/
theorem twoPathQuotient_eq {b : Word} (a pow : Word) (k : Nat) (hb : b.toInt ≠ 0) :
    twoPathQuotient a b k pow =
      if scaledDividend (magnitude a) k pow / magnitude b < 2 ^ 128 then
        some (scaledDividend (magnitude a) k pow / magnitude b,
          scaledDividend (magnitude a) k pow % magnitude b)
      else none := by
  have hpos : 0 < (magnitudePattern b).toNat := magnitude_pos hb
  unfold twoPathQuotient fastPathApplies
  by_cases hfast : scaledDividend (magnitude a) k pow < 2 ^ 128
  · rw [if_pos (decide_eq_true hfast), if_pos ((Nat.div_le_self _ _).trans_lt hfast)]
  · rw [if_neg (by simpa using hfast), ← uint256Value_mul128_magnitude (Nat.le_of_not_lt hfast)]
    have hfits := quotient_lt_iff (num := mul128 (magnitudePattern a) pow) hpos.ne'
    by_cases hlt : (mul128 (magnitudePattern a) pow).hi.toNat < (magnitudePattern b).toNat
    · rw [magnitude, if_pos (hfits.2 hlt), if_neg (Nat.not_le_of_lt hlt), wideQuotient_toNat hlt,
        wideRemainder_toNat hpos]
    · rw [magnitude, if_neg (hfits.not.2 hlt), if_pos (Nat.le_of_not_lt hlt)]

/-- The path is hidden: a failed precondition ends as the quotient it stands for would (R87, R90). -/
theorem divideByPaths_eq_divideResult (digitCheck : Bool) (rom : Vector Word 39) (k : Nat) (a b : Word) :
    divideByPaths digitCheck rom k a b = divideResult digitCheck rom k a b := by
  unfold divideByPaths divideResult
  by_cases hb : b.toInt = 0
  · rw [if_pos hb, if_pos hb]
  rw [if_neg hb, if_neg hb]
  cases romRead rom k with
  | none => rfl
  | some pow =>
    refine if_congr Iff.rfl rfl ?_
    rw [twoPathQuotient_eq a pow k hb]
    by_cases hfits : scaledDividend (magnitude a) k pow / magnitude b < 2 ^ 128
    · rw [if_pos hfits, quotientMagnitude]
    · rw [if_neg hfits]
      exact (signedQuotient_of_two_pow_le digitCheck a b
        ((Nat.le_of_not_lt hfits).trans (le_roundHalfUp _ _ _))).symm

/-- Settles O39: a quotient of 2^128 or more needs a dividend as large. -/
theorem twoPathDivideIsExact : Obligations.TwoPathDivideIsExact := by
  refine ⟨divideByPaths_eq_divideResult, fun a b pow k hb => ?_⟩
  have hle := Nat.div_le_self (scaledDividend (magnitude a) k pow) (magnitude b)
  rw [twoPathQuotient_eq a pow k hb, ite_eq_right_iff]
  simp only [reduceCtorEq, imp_false, not_lt]
  exact ⟨fun h => ⟨h.trans hle, h⟩, And.right⟩

/-! ### The outcomes of DIVIDE -/

/-- The rounded magnitude in the closed form of R92. -/
def closedQuotient (a b : Word) (k : Nat) : Nat :=
  (2 * (a.toInt.natAbs * 10 ^ k) + b.toInt.natAbs) / (2 * b.toInt.natAbs)

/-- For K = 0 whatever the ROM holds, since K = 0 uses no entry of it (R84). -/
theorem exists_scalingEntry {rom : Vector Word 39} {k : Nat} (hk : k ≤ 38) (hrom : k ≠ 0 → rom = pow10Rom) :
    ∃ pow, romRead rom k = some pow ∧ ∀ ua, scaledDividend ua k pow = ua * 10 ^ k := by
  by_cases hzero : k = 0
  · subst hzero
    exact ⟨rom[0], Vector.getElem?_eq_getElem (by omega), fun ua => by simp [scaledDividend]⟩
  · refine ⟨_, hrom hzero ▸ romRead_pow10Rom_of_le hk, fun ua => ?_⟩
    rw [scaledDividend, if_neg hzero, pow10Entry_toNat hk]

theorem romRead_of_gt (rom : Vector Word 39) {k : Nat} (h : 38 < k) : romRead rom k = none :=
  Vector.getElem?_eq_none h

theorem divideResult_of_zero {b : Word} (digitCheck : Bool) (rom : Vector Word 39) (k : Nat) (a : Word)
    (hb : b.toInt = 0) : divideResult digitCheck rom k a b = .raise .divZero := if_pos hb

theorem divideResult_of_gt {b : Word} {k : Nat} (digitCheck : Bool) (rom : Vector Word 39) (a : Word)
    (hb : b.toInt ≠ 0) (hk : 38 < k) : divideResult digitCheck rom k a b = .raise .pow10Range := by
  rw [divideResult, if_neg hb, romRead_of_gt rom hk]

/-- Past the checks of the divisor and of K: the digits of the operands, then the quotient in its closed
form (R84, R92). -/
theorem divideResult_of_le {rom : Vector Word 39} {k : Nat} {b : Word} (digitCheck : Bool) (a : Word)
    (hb : b.toInt ≠ 0) (hk : k ≤ 38) (hrom : k ≠ 0 → rom = pow10Rom) :
    divideResult digitCheck rom k a b =
      if operandsOverDigits digitCheck a b then .raise .digitOvf
      else signedQuotient digitCheck a b (closedQuotient a b k) := by
  obtain ⟨pow, hpow, hscaled⟩ := exists_scalingEntry hk hrom
  have hquot : quotientMagnitude a b k pow = closedQuotient a b k := by
    rw [quotientMagnitude, roundHalfUp_eq_div _ (magnitude_pos hb), hscaled, magnitude_eq, magnitude_eq,
      closedQuotient]
  rw [divideResult, if_neg hb, hpow, ← hquot]

theorem operandsOverDigits_iff (digitCheck : Bool) (a b : Word) :
    operandsOverDigits digitCheck a b = true ↔
      digitCheck = true ∧ (10 ^ 38 ≤ a.toInt.natAbs ∨ 10 ^ 38 ≤ b.toInt.natAbs) := by
  rw [operandsOverDigits, tooManyDigits, tooManyDigits, digitBound, magnitude_eq, magnitude_eq]
  simp only [Bool.and_eq_true, Bool.or_eq_true, decide_eq_true_iff]

theorem exec_divide_of_result {s : State} {k : Nat} {r : Result}
    (h : divideResult s.digitCheck s.rom k s.held.a s.held.b = r) :
    exec (.divide k) s = .next (s.complete r) := by
  rw [exec_divide, h]

theorem exec_divide_of_raise {s : State} {k : Nat} {f : FaultStatus}
    (h : divideResult s.digitCheck s.rom k s.held.a s.held.b = .raise f) :
    EndsWithCode s (exec (.divide k) s) (Status.fault f).code :=
  exec_divide_of_result h ▸ endsWithCode_raise s f

/-- Settles O37: the checks one by one, the last three on the signed quotient in its closed form. -/
theorem divideOutcomes : Obligations.DivideOutcomes := by
  refine ⟨fun w k => decode_eq_ok_iff_kMask (.divide k) w, ?_⟩
  rintro s k _ _ hrom rfl rfl
  rw [← applySign_eq, ← closedQuotient]
  refine ⟨fun hb => exec_divide_of_raise (divideResult_of_zero _ _ _ _ hb),
    fun hb hk => exec_divide_of_raise (divideResult_of_gt _ _ _ hb hk),
    fun hb hk hcheck hover => exec_divide_of_raise (f := .digitOvf) ?_, fun hb hk hbelow => ?_⟩
  · rw [divideResult_of_le _ _ hb hk hrom, if_pos ((operandsOverDigits_iff _ _ _).2 ⟨hcheck, hover⟩)]
  have hover : ¬ operandsOverDigits s.digitCheck s.held.a s.held.b = true := by
    rw [operandsOverDigits_iff]
    rintro ⟨hcheck, hover⟩
    have := hbelow hcheck
    omega
  have hresult := divideResult_of_le s.digitCheck s.held.a hb hk hrom
  rw [if_neg hover] at hresult
  refine ⟨fun hout => ?_, fun hlow hhigh hcheck hdigits => ?_, fun hlow hhigh hdigits => ?_⟩
  · refine exec_divide_of_raise (f := .resultOvf) (hresult.trans (signedQuotient_of_not_fits _ ?_))
    rw [fitsI128_iff]
    omega
  · refine exec_divide_of_raise (f := .digitOvf) (hresult.trans ?_)
    rw [hcheck]
    exact signedQuotient_of_digits ((fitsI128_iff _).2 ⟨hlow, hhigh⟩) hdigits
  · have hfits := (fitsI128_iff _).2 ⟨hlow, hhigh⟩
    exact ⟨exec_divide_of_result
      (hresult.trans ((signedQuotient_eq_finish_iff _ _ _ _ _ _).2 ⟨hfits, hdigits, rfl, rfl⟩)),
      enc128_toInt hfits⟩

/-! ### The sign law -/

/-- The result with the opposite first result; a fault stays as it is (R93). -/
def Result.negated : Result → Result
  | .finish res0 res1 => .finish (-res0) res1
  | .raise f => .raise f

theorem Result.negated_negated (r : Result) : r.negated.negated = r := by
  cases r with
  | finish res0 res1 => rw [Result.negated, Result.negated, BitVec.neg_neg]
  | raise f => rfl

theorem complete_negated_status (s t : State) (r : Result) :
    (t.complete r.negated).resp.status = (s.complete r).resp.status := by
  cases r <;> rfl

theorem complete_negated_res0 {s : State} {r : Result} (t : State)
    (hok : (s.complete r).resp.status = 0x00) :
    (t.complete r.negated).resp.res0 = -(s.complete r).resp.res0 := by
  cases r with
  | finish res0 res1 => rfl
  | raise f => exact absurd hok (raise_status_ne_ok s f)

/-- Of the i128 range only -2^127 has no negative in it (R93). -/
theorem toInt_neg_word {a : Word} (h : a.toInt ≠ -2 ^ 127) : (-a).toInt = -a.toInt :=
  BitVec.toInt_neg_of_ne_intMin fun hmin => h (hmin ▸ BitVec.toInt_intMin_of_pos (by decide))

theorem applySign_comm (a b : Word) (q : Nat) : applySign a b q = applySign b a q := by
  rw [applySign_eq, applySign_eq]
  exact if_congr eq_comm rfl rfl

/-- The negated operand has the other sign, or is 0 and the magnitude must be 0 too. -/
theorem applySign_neg_left {a : Word} {q : Nat} (b : Word) (ha : a.toInt ≠ -2 ^ 127)
    (hzero : a.toInt = 0 → q = 0) : applySign (-a) b q = -applySign a b q := by
  rw [applySign_eq, applySign_eq, toInt_neg_word ha]
  rcases lt_trichotomy a.toInt 0 with hneg | hnull | hpos
  · by_cases hb : b.toInt < 0 <;> simp [hneg, hneg.le, hb]
  · simp [hzero hnull]
  · by_cases hb : b.toInt < 0 <;> simp [hpos, hpos.not_gt, hb]

theorem closedQuotient_of_left_zero {a : Word} (b : Word) (k : Nat) (h : a.toInt = 0) :
    closedQuotient a b k = 0 := by
  rw [closedQuotient, h, Int.natAbs_zero, Nat.zero_mul, Nat.mul_zero, Nat.zero_add, Nat.div_eq_zero_iff]
  omega

theorem closedQuotient_of_right_zero {b : Word} (a : Word) (k : Nat) (h : b.toInt = 0) :
    closedQuotient a b k = 0 := by
  simp [closedQuotient, h]

/-- The range treats a result and its negative alike, but for the magnitude 2^127 (R90, R93). -/
theorem fitsI128_neg {n : Int} (h : n.natAbs ≠ 2 ^ 127) : fitsI128 (-n) = fitsI128 n := by
  rw [Bool.eq_iff_iff, fitsI128_iff, fitsI128_iff]
  omega

theorem signedQuotient_of_opposite {a b a' b' : Word} {q : Nat} (digitCheck : Bool)
    (hsign : applySign a' b' q = -applySign a b q) (hq : q ≠ 2 ^ 127) :
    signedQuotient digitCheck a' b' q = (signedQuotient digitCheck a b q).negated := by
  have hfits := fitsI128_neg (n := applySign a b q) (by rwa [applySign_natAbs])
  have henc : enc128 (-applySign a b q) = -enc128 (applySign a b q) := BitVec.ofInt_neg
  unfold signedQuotient
  rw [hsign, hfits, henc, apply_ite Result.negated, apply_ite Result.negated]
  rfl

/-- Every check of DIVIDE reads the two magnitudes, K and the rounded magnitude only, so operands of the
same magnitudes that give the opposite sign end alike (R93). -/
theorem divideResult_of_opposite {rom : Vector Word 39} {k : Nat} {a b a' b' : Word} (digitCheck : Bool)
    (hrom : k ≠ 0 → rom = pow10Rom)
    (ha : a'.toInt.natAbs = a.toInt.natAbs) (hb : b'.toInt.natAbs = b.toInt.natAbs)
    (hsign : applySign a' b' (closedQuotient a b k) = -applySign a b (closedQuotient a b k))
    (hq : closedQuotient a b k ≠ 2 ^ 127) :
    divideResult digitCheck rom k a' b' = (divideResult digitCheck rom k a b).negated := by
  by_cases hzero : b.toInt = 0
  · rw [divideResult_of_zero _ _ _ _ hzero, divideResult_of_zero _ _ _ _ (by omega), Result.negated]
  have hzero' : b'.toInt ≠ 0 := by omega
  by_cases hk : 38 < k
  · rw [divideResult_of_gt _ _ _ hzero hk, divideResult_of_gt _ _ _ hzero' hk, Result.negated]
  have hover : operandsOverDigits digitCheck a' b' = operandsOverDigits digitCheck a b := by
    rw [Bool.eq_iff_iff, operandsOverDigits_iff, operandsOverDigits_iff, ha, hb]
  have hclosed : closedQuotient a' b' k = closedQuotient a b k := by
    rw [closedQuotient, closedQuotient, ha, hb]
  rw [divideResult_of_le _ _ hzero (Nat.le_of_not_lt hk) hrom,
    divideResult_of_le _ _ hzero' (Nat.le_of_not_lt hk) hrom, hover, hclosed,
    signedQuotient_of_opposite _ hsign hq, apply_ite Result.negated, Result.negated]

theorem divideResult_neg_left {rom : Vector Word 39} {k : Nat} {a b : Word} (digitCheck : Bool)
    (hrom : k ≠ 0 → rom = pow10Rom) (ha : a.toInt ≠ -2 ^ 127)
    (hq : closedQuotient a b k ≠ 2 ^ 127) :
    divideResult digitCheck rom k (-a) b = (divideResult digitCheck rom k a b).negated :=
  divideResult_of_opposite digitCheck hrom (by rw [toInt_neg_word ha, Int.natAbs_neg]) rfl
    (applySign_neg_left b ha (closedQuotient_of_left_zero b k)) hq

theorem divideResult_neg_right {rom : Vector Word 39} {k : Nat} {a b : Word} (digitCheck : Bool)
    (hrom : k ≠ 0 → rom = pow10Rom) (hb : b.toInt ≠ -2 ^ 127)
    (hq : closedQuotient a b k ≠ 2 ^ 127) :
    divideResult digitCheck rom k a (-b) = (divideResult digitCheck rom k a b).negated := by
  refine divideResult_of_opposite digitCheck hrom rfl (by rw [toInt_neg_word hb, Int.natAbs_neg]) ?_ hq
  rw [applySign_comm, applySign_comm a b]
  exact applySign_neg_left a hb (closedQuotient_of_right_zero a k)

/-- Negating both operands negates the result twice. -/
theorem divideResult_neg_neg {rom : Vector Word 39} {k : Nat} {a b : Word} (digitCheck : Bool)
    (hrom : k ≠ 0 → rom = pow10Rom) (ha : a.toInt ≠ -2 ^ 127)
    (hb : b.toInt ≠ -2 ^ 127) (hq : closedQuotient a b k ≠ 2 ^ 127) :
    divideResult digitCheck rom k (-a) (-b) = divideResult digitCheck rom k a b := by
  have hqb : closedQuotient a (-b) k ≠ 2 ^ 127 := by
    rwa [closedQuotient, toInt_neg_word hb, Int.natAbs_neg]
  rw [divideResult_neg_left digitCheck hrom ha hqb, divideResult_neg_right digitCheck hrom hb hq,
    Result.negated_negated]

/-- Settles O38: the three other commands complete with the result negated once, once and twice. -/
theorem divideSignLaw : Obligations.DivideSignLaw := by
  intro s k hrom ha hb hq
  obtain ⟨_, _, ⟨⟩, ⟨⟩, hstatus, hresp⟩ := sameResponse_complete s
    { s with held := { s.held with a := -s.held.a, b := -s.held.b } }
    (divideResult s.digitCheck s.rom k s.held.a s.held.b)
  refine ⟨_, _, _, _, exec_divide k s,
    exec_divide_of_result (divideResult_neg_left s.digitCheck (fun _ => hrom) ha hq),
    exec_divide_of_result (divideResult_neg_right s.digitCheck (fun _ => hrom) hb hq),
    exec_divide_of_result (divideResult_neg_neg s.digitCheck (fun _ => hrom) ha hb hq),
    complete_negated_status s _ _, complete_negated_status s _ _, hstatus.symm, fun hok =>
      ⟨complete_negated_res0 _ hok, complete_negated_res0 _ hok, congrArg Response.res0 (hresp hok).symm⟩⟩

end Sys2Proof.Machine
end

section
/-! PROOFS. The statements of 44_precision_rules.md: the types of a division, a sum and an average, and the
ranges of the scale adjustments they give. -/

namespace Sys2Proof.Machine

/-! ### How a type command ends -/

theorem exec_of_finish {s : State} {i : Instr} {res0 res1 : Word}
    (h : commandResult s.digitCheck s.rom s.held i = .finish res0 res1) :
    exec i s = .next (s.endedOk res0 res1) := by
  rw [exec_eq_complete, h, complete_finish]

theorem endsWithCode_of_raise {s : State} {i : Instr} {f : FaultStatus}
    (h : commandResult s.digitCheck s.rom s.held i = .raise f) :
    EndsWithCode s (exec i s) (Status.fault f).code := by
  rw [exec_eq_complete, h]
  exact endsWithCode_raise s f

theorem readDescriptor_of_descriptorIs {v : Word} {p sc : Nat} (h : DescriptorIs v p sc) :
    readDescriptor v = some ⟨p, sc⟩ :=
  (readDescriptor_eq_some_iff v ⟨p, sc⟩).2 h

/-- Both parts of a valid descriptor fit their bytes (R57). -/
theorem descriptorPattern_of_valid {d : Descriptor} (h : d.Valid) :
    descriptorPattern d = BitVec.ofNat 128 (d.scale * 256 + d.precision) := by
  obtain ⟨hscale, hprecision⟩ := h
  rw [descriptorPattern, packDescriptor, Nat.mod_eq_of_lt (by omega), Nat.mod_eq_of_lt (by omega)]

theorem typeResult_of_invalid (rule : Descriptor → Descriptor) {a : Word} (h : InvalidDescriptor a) :
    typeResult rule a = .raise .typeRange := by
  rw [typeResult, (readDescriptor_eq_none_iff a).2 h]

theorem typeResult_of_descriptorIs {rule : Descriptor → Descriptor} {a : Word} {p sc : Nat}
    (ha : DescriptorIs a p sc) (hvalid : (rule ⟨p, sc⟩).Valid) :
    typeResult rule a =
      .finish (BitVec.ofNat 128 ((rule ⟨p, sc⟩).scale * 256 + (rule ⟨p, sc⟩).precision)) 0 :=
  (typeResult_eq_finish_iff rule _ _ _).2
    ⟨_, readDescriptor_of_descriptorIs ha, (descriptorPattern_of_valid hvalid).symm, rfl⟩

/-- The check of A comes before that of B, and both raise the same code (R95, R110). -/
theorem divtypeResult_of_invalid {a b : Word} (h : InvalidDescriptor a ∨ InvalidDescriptor b) :
    divtypeResult a b = .raise .typeRange := by
  rw [← readDescriptor_eq_none_iff, ← readDescriptor_eq_none_iff] at h
  unfold divtypeResult
  cases ha : readDescriptor a with
  | none => rfl
  | some d1 => rw [h.resolve_left (by simp [ha])]

theorem divtypeResult_of_descriptorIs {a b : Word} {p1 s1 p2 s2 : Nat} {d : Descriptor}
    (ha : DescriptorIs a p1 s1) (hb : DescriptorIs b p2 s2)
    (htype : divisionType ⟨p1, s1⟩ ⟨p2, s2⟩ = d) :
    divtypeResult a b =
      .finish (BitVec.ofNat 128 (d.scale * 256 + d.precision)) (BitVec.ofInt 128 (d.scale - s1 + s2)) := by
  subst htype
  exact (divtypeResult_eq_finish_iff _ _ _ _).2
    ⟨_, _, readDescriptor_of_descriptorIs ha, readDescriptor_of_descriptorIs hb,
      (descriptorPattern_of_valid (divisionType_valid _ _)).symm, rfl⟩

/-! ### The type of a division -/

/-- With 38 digits or more before the point no scale is left for `38 - intDigits` to give, so the two
branches of R95's cap are one formula on natural numbers. -/
theorem cappedScale_eq (rs intDigits : Nat) : cappedScale rs intDigits = max (38 - intDigits) (min rs 6) := by
  unfold cappedScale
  split
  · rfl
  next h =>
    have hnone : 38 - intDigits = 0 := Nat.sub_eq_zero_of_le (Nat.le_of_not_lt h)
    rw [hnone, Nat.zero_max]
    rfl

theorem divisionType_of_le {d1 d2 : Descriptor} (h : uncappedPrecision d1 d2 ≤ 38) :
    divisionType d1 d2 = ⟨uncappedPrecision d1 d2, uncappedScale d1 d2⟩ :=
  if_neg (Nat.not_lt_of_le h)

theorem divisionType_of_gt {d1 d2 : Descriptor} (h : 38 < uncappedPrecision d1 d2) :
    divisionType d1 d2 =
      ⟨38, max (38 - (uncappedPrecision d1 d2 - uncappedScale d1 d2)) (min (uncappedScale d1 d2) 6)⟩ := by
  rw [← cappedScale_eq]
  exact if_pos h

/-- Settles O40: the three cases of the statement are the branches of `divisionType`. -/
theorem divtypeGivesTypeAndAdjustment : Obligations.DivtypeGivesTypeAndAdjustment := by
  refine ⟨decode_eq_ok_iff_fullMask (i := .divtype) rfl,
    fun s h => endsWithCode_of_raise (f := .typeRange) (divtypeResult_of_invalid h), ?_⟩
  intro s p1 s1 p2 s2 rs0 rp0 rs rp ha hb hrs0 hrp0 hfits hcapped
  have hscale : uncappedScale ⟨p1, s1⟩ ⟨p2, s2⟩ = rs0 := hrs0.symm
  have hprecision : uncappedPrecision ⟨p1, s1⟩ ⟨p2, s2⟩ = rp0 := by rw [uncappedPrecision, hscale, hrp0]
  refine exec_of_finish (divtypeResult_of_descriptorIs (d := ⟨rp, rs⟩) ha hb ?_)
  rcases Nat.lt_or_ge 38 rp0 with hgt | hle
  · obtain ⟨rfl, hsome, hnone⟩ := hcapped hgt
    have hrs : rs = max (38 - (rp0 - rs0)) (min rs0 6) := by omega
    rw [divisionType_of_gt (by omega), hprecision, hscale, hrs]
  · obtain ⟨rfl, rfl⟩ := hfits hle
    rw [divisionType_of_le (by omega), hprecision, hscale]

/-! ### The adjustment of a division -/

/-- R96. Uncapped, the adjustment is rp - p1, at most 38 - p1. Capped, the scale is 38 - intDigits, which
gives 38 - p1, or the minimum scale 6, to which s2 adds at most 38. -/
theorem scaleAdjustment_bounds {d1 d2 : Descriptor} (h1 : d1.Valid) (h2 : d2.Valid) :
    0 ≤ scaleAdjustment d1 d2 ∧ scaleAdjustment d1 d2 ≤ 44 := by
  obtain ⟨hs1, hp1⟩ := h1
  obtain ⟨hs2, hp2⟩ := h2
  have hscale : uncappedScale d1 d2 = max 6 (d1.scale + d2.precision + 1) := rfl
  have hprecision : uncappedPrecision d1 d2 = (d1.precision - d1.scale) + d2.scale + uncappedScale d1 d2 :=
    rfl
  unfold scaleAdjustment
  rcases Nat.lt_or_ge 38 (uncappedPrecision d1 d2) with hgt | hle
  · rw [divisionType_of_gt hgt]
    dsimp only
    omega
  · rw [divisionType_of_le hle]
    dsimp only
    omega

theorem enc128_toNat_le {n : Int} {bound : Nat} (hlow : 0 ≤ n) (hhigh : n ≤ bound) :
    (enc128 n).toNat ≤ bound := by
  obtain ⟨m, rfl⟩ := Int.eq_ofNat_of_zero_le hlow
  rw [enc128, BitVec.ofInt_natCast, BitVec.toNat_ofNat]
  exact (Nat.mod_le m _).trans (Int.ofNat_le.1 hhigh)

/-- Settles O41: RES1 is the adjustment of two descriptors that were read, which are valid. -/
theorem divtypeAdjustmentRange : Obligations.DivtypeAdjustmentRange := by
  refine ⟨fun d1 d2 hs1 hp1 hs2 hp2 => scaleAdjustment_bounds ⟨hs1, hp1⟩ ⟨hs2, hp2⟩,
    by decide, by decide, by decide, by decide, fun s t hexec hok => ?_⟩
  obtain ⟨res0, res1, hresult, rfl⟩ := exec_eq_next_ok hexec hok
  obtain ⟨d1, d2, hread1, hread2, -, rfl⟩ := (divtypeResult_eq_finish_iff _ _ _ _).1 hresult
  obtain ⟨hlow, hhigh⟩ :=
    scaleAdjustment_bounds (valid_of_readDescriptor hread1) (valid_of_readDescriptor hread2)
  exact enc128_toNat_le hlow hhigh

/-! ### The types of a sum and an average -/

/-- Settles O42. -/
theorem sumtypeGivesTheSumType : Obligations.SumtypeGivesTheSumType := by
  refine ⟨decode_eq_ok_iff_fullMask (i := .sumtype) rfl,
    fun s h => endsWithCode_of_raise (f := .typeRange) (typeResult_of_invalid sumType h), ?_⟩
  intro s p sc ha
  have hvalid : (⟨p, sc⟩ : Descriptor).Valid := valid_of_readDescriptor (readDescriptor_of_descriptorIs ha)
  exact exec_of_finish (typeResult_of_descriptorIs ha (sumType_valid hvalid))

/-- Settles O43. -/
theorem avgtypeGivesTheAverageType : Obligations.AvgtypeGivesTheAverageType := by
  refine ⟨decode_eq_ok_iff_fullMask (i := .avgtype) rfl,
    fun s h => endsWithCode_of_raise (f := .typeRange) (typeResult_of_invalid avgType h), ?_⟩
  rintro s p sc _ _ ha rfl rfl
  exact exec_of_finish (typeResult_of_descriptorIs ha (avgType_valid ⟨p, sc⟩))

/-- R102: the cap by the precision min(p + 4, 38) never binds, since s <= p and 18 <= 38. -/
theorem avgType_scale {d : Descriptor} (h : d.Valid) : (avgType d).scale = min (d.scale + 4) 18 := by
  obtain ⟨hscale, -⟩ := h
  exact min_eq_left (min_le_min (Nat.add_le_add_right hscale 4) (by decide))

/-- Settles O44: min(s + 4, 18) is below s exactly where the cap of 18 is. -/
theorem averageCapAndAdjustment : Obligations.AverageCapAndAdjustment := by
  intro d hscale hprecision
  have hrs := avgType_scale ⟨hscale, hprecision⟩
  obtain ⟨hle, -⟩ := avgType_valid d
  exact ⟨hrs, hle, by omega, by omega⟩

end Sys2Proof.Machine
end

section
/-! PROOFS. The statements of 60_exceptions.md: which command raises which fault, that a fault leaves nothing
behind for the next command, and that every word and every edge gets an answer. -/

namespace Sys2Proof.Machine

/-! ### The ways a command faults -/

theorem divResult_eq_raise {num : UInt256} {den : Word} {f : FaultStatus}
    (h : divResult num den = .raise f) : f = .divZero ∨ f = .quotOvf := by
  unfold divResult at h
  split at h
  · cases h; exact .inl rfl
  split at h
  · cases h; exact .inr rfl
  · cases h

theorem pow10Result_eq_raise {rom : Vector Word 39} {k : Nat} {f : FaultStatus}
    (h : pow10Result rom k = .raise f) : f = .pow10Range := by
  unfold pow10Result at h
  split at h
  · cases h
  · cases h; rfl

/-- R113: only DIGIT_CHECK = true lets the digits of the result raise a fault. -/
theorem signedQuotient_eq_raise {digitCheck : Bool} {a b : Word} {q : Nat} {f : FaultStatus}
    (h : signedQuotient digitCheck a b q = .raise f) :
    f = .resultOvf ∨ f = .digitOvf ∧ digitCheck = true := by
  unfold signedQuotient at h
  split at h
  · cases h; exact .inl rfl
  split at h
  next hdigits =>
    cases h
    exact .inr ⟨rfl, (Bool.and_eq_true_iff.1 hdigits).1⟩
  · cases h

/-- The checks of R84 in their order; the digits of the operands count only under DIGIT_CHECK = true too. -/
theorem divideResult_eq_raise {digitCheck : Bool} {rom : Vector Word 39} {k : Nat} {a b : Word}
    {f : FaultStatus} (h : divideResult digitCheck rom k a b = .raise f) :
    f = .divZero ∨ f = .pow10Range ∨ f = .resultOvf ∨ f = .digitOvf ∧ digitCheck = true := by
  unfold divideResult at h
  split at h
  · cases h; exact .inl rfl
  split at h
  · cases h; exact .inr (.inl rfl)
  split at h
  next hover =>
    cases h
    exact .inr (.inr (.inr ⟨rfl, ((operandsOverDigits_iff _ _ _).1 hover).1⟩))
  · exact .inr (.inr (signedQuotient_eq_raise h))

theorem typeResult_eq_raise_iff (rule : Descriptor → Descriptor) (a : Word) (f : FaultStatus) :
    typeResult rule a = .raise f ↔ f = .typeRange ∧ InvalidDescriptor a := by
  rw [← readDescriptor_eq_none_iff, typeResult]
  cases readDescriptor a with
  | none => simp [eq_comm]
  | some d => simp

theorem divtypeResult_eq_raise_iff (a b : Word) (f : FaultStatus) :
    divtypeResult a b = .raise f ↔ f = .typeRange ∧ (InvalidDescriptor a ∨ InvalidDescriptor b) := by
  rw [← readDescriptor_eq_none_iff, ← readDescriptor_eq_none_iff, divtypeResult]
  cases readDescriptor a with
  | none => simp [eq_comm]
  | some d1 =>
    cases readDescriptor b with
    | none => simp [eq_comm]
    | some d2 => simp

/-! ### The codes of each command -/

/-- The "raised by" column of R105, with R113's condition on DIGIT_CHECK; ILLEGAL is raised by no command. -/
def FaultStatus.RaisedBy (digitCheck : Bool) (i : Instr) : FaultStatus → Prop
  | .illegal => False
  | .divZero => i = .div256 ∨ ∃ k, i = .divide k
  | .pow10Range => (∃ k, i = .pow10 k) ∨ ∃ k, i = .divide k
  | .quotOvf => i = .div256
  | .resultOvf => ∃ k, i = .divide k
  | .digitOvf => (∃ k, i = .divide k) ∧ digitCheck = true
  | .typeRange => i = .divtype ∨ i = .sumtype ∨ i = .avgtype

theorem raisedBy_of_commandResult {digitCheck : Bool} {rom : Vector Word 39} {c : Command} {i : Instr}
    {f : FaultStatus} (h : commandResult digitCheck rom c i = .raise f) : f.RaisedBy digitCheck i := by
  cases i with
  | abs128 => cases h
  | mul128 => cases h
  | div256 =>
    obtain rfl | rfl := divResult_eq_raise h
    · exact .inl rfl
    · exact rfl
  | pow10 k =>
    obtain rfl := pow10Result_eq_raise h
    exact .inl ⟨k, rfl⟩
  | divide k =>
    obtain rfl | rfl | rfl | ⟨rfl, hcheck⟩ := divideResult_eq_raise h
    · exact .inr ⟨k, rfl⟩
    · exact .inr ⟨k, rfl⟩
    · exact ⟨k, rfl⟩
    · exact ⟨⟨k, rfl⟩, hcheck⟩
  | divtype =>
    obtain ⟨rfl, -⟩ := (divtypeResult_eq_raise_iff _ _ _).1 h
    exact .inl rfl
  | sumtype =>
    obtain ⟨rfl, -⟩ := (typeResult_eq_raise_iff _ _ _).1 h
    exact .inr (.inl rfl)
  | avgtype =>
    obtain ⟨rfl, -⟩ := (typeResult_eq_raise_iff _ _ _).1 h
    exact .inr (.inr rfl)

/-- The code of a response tells the fault that was raised, since no two outcomes share a code (R105). -/
theorem complete_status_eq_iff (s : State) (r : Result) (f : FaultStatus) :
    (s.complete r).resp.status = (Status.fault f).code ↔ r = .raise f := by
  cases r with
  | finish res0 res1 => simpa using (faultCode_ne_zero f).symm
  | raise g =>
    rw [complete_raise, State.raise_resp, Result.raise.injEq]
    exact ⟨faultCode_inj, congrArg fun f => (Status.fault f).code⟩

theorem raisedBy_of_exec {i : Instr} {s t : State} {f : FaultStatus} (hexec : exec i s = .next t)
    (hcode : t.resp.status = (Status.fault f).code) : f.RaisedBy s.digitCheck i := by
  rw [exec_eq_complete] at hexec
  cases hexec
  exact raisedBy_of_commandResult ((complete_status_eq_iff _ _ _).1 hcode)

/-- Settles O19: each clause is the row of its fault in the table `FaultStatus.RaisedBy`. -/
theorem statusCodesByCommand : Obligations.StatusCodesByCommand := by
  intro i s t hexec
  have hle : t.resp.status.toNat ≤ 7 := by
    rw [exec_eq_complete] at hexec
    cases hexec
    exact complete_status_le_seven s _
  exact ⟨hle, raisedBy_of_exec (f := .illegal) hexec, raisedBy_of_exec (f := .divZero) hexec,
    raisedBy_of_exec (f := .pow10Range) hexec, raisedBy_of_exec (f := .quotOvf) hexec,
    raisedBy_of_exec (f := .resultOvf) hexec, raisedBy_of_exec (f := .digitOvf) hexec,
    raisedBy_of_exec (f := .typeRange) hexec⟩

/-! ### TYPE_RANGE -/

/-- A command ends with a fault's code exactly when it raises that fault. -/
theorem endsWithCode_exec_iff (s : State) (i : Instr) (f : FaultStatus) :
    EndsWithCode s (exec i s) (Status.fault f).code ↔
      commandResult s.digitCheck s.rom s.held i = .raise f := by
  refine ⟨?_, endsWithCode_of_raise⟩
  rintro ⟨res0, res1, n, hnext⟩
  rw [exec_eq_complete, Host.Outcome.next.injEq] at hnext
  exact (complete_status_eq_iff s _ f).1 (by rw [hnext])

/-- Settles O46: the results of the type commands read no other port than those whose descriptors they
check. -/
theorem typeRangeExactlyForInvalidDescriptors : Obligations.TypeRangeExactlyForInvalidDescriptors := by
  intro s
  refine ⟨(endsWithCode_exec_iff s .divtype .typeRange).trans ?_,
    (endsWithCode_exec_iff s .sumtype .typeRange).trans ?_,
    (endsWithCode_exec_iff s .avgtype .typeRange).trans ?_⟩
  · exact (divtypeResult_eq_raise_iff _ _ _).trans (and_iff_right rfl)
  · exact (typeResult_eq_raise_iff sumType _ _).trans (and_iff_right rfl)
  · exact (typeResult_eq_raise_iff avgType _ _).trans (and_iff_right rfl)

/-! ### Illegal words -/

theorem step_of_illegal {s : State} {why : Illegal} (hr : s.pins.rst = false) (hp : s.phase = .busy 0)
    (hdecode : decode s.held.cmd = .error why) : step s = .next (s.raise .illegal).nextPins := by
  rw [step_of_busy_zero hr hp, completeEdge_of_illegal hdecode, complete_raise, afterEdge_next]

/-- Settles O7: the state with other operands holds the same word, which is all that decoding reads. -/
theorem illegalIsDecidedByTheWordAlone : Obligations.IllegalIsDecidedByTheWordAlone := by
  intro s a b c why hr hp hdecode
  have hstep := step_of_illegal (s := { s with held := { cmd := s.held.cmd, a := a, b := b, c := c } })
    hr hp hdecode
  exact ⟨_, _, _, hstep⟩

/-! ### After a fault, and no stuck states -/

/-- A command that was completed and taken, with any outcome, leaves the constants to the next one (R108). -/
theorem sameCommand_after_complete (s : State) (r : Result) (c : Command) :
    SameCommand ((s.complete r).takeResponse.presented c) (s.presented c) :=
  ⟨rfl, complete_digitCheck s r, complete_rom s r⟩

/-- Settles O23: completion keeps the ports, the command and the constants, whatever the outcome is, and the
next response depends on its command and the constants only. -/
theorem faultLeavesNoTrace : Obligations.FaultLeavesNoTrace := by
  intro s t c hcomplete _
  rw [completeEdge_eq_complete] at hcomplete
  cases hcomplete
  exact ⟨complete_pins s _, complete_held s _, rfl, complete_rom s _, complete_digitCheck s _,
    sameResponse_completeEdge (sameCommand_after_complete s _ c)⟩

/-- Settles O8: every command completes, with its result or a fault, and every edge leads to a state. -/
theorem everyStepAnswersNext : Obligations.EveryStepAnswersNext :=
  ⟨fun i s => ⟨_, exec_eq_complete i s⟩, fun s => ⟨_, step_eq_next_afterStep s⟩⟩

end Sys2Proof.Machine
end

section
/-! PROOFS. The statements of 70_reset_and_hazards.md: the edge with RST = 1, and the time between power-up and
the first such edge. -/

namespace Sys2Proof.Machine

/-! ### The reset edge -/

/-- RST = 1 holds both handshake outputs low (R128). -/
theorem handshake_low_of_rst {s : State} (h : HasBeenReset s) (hr : s.pins.rst = true) :
    s.reqReady = false ∧ s.rspValid = false := by
  rw [State.reqReady_of_hasBeenReset h, State.rspValid_of_hasBeenReset h, hr]
  simp

/-- Settles O13: every phase steps by `State.resetEdge`, and in Idle RST alone decides REQ_READY. -/
theorem resetEdgeEntersIdle : Obligations.ResetEdgeEntersIdle := by
  intro s hr
  have hidle : s.resetEdge.nextPins.phase = .idle := by simp
  have hreset : HasBeenReset s.resetEdge.nextPins := by simp
  obtain ⟨hrom, hdigit⟩ := step_keeps_constants (step_of_rst hr)
  refine ⟨fun h => handshake_low_of_rst h hr, _, _, _, _, step_of_rst hr, rfl, hidle,
    State.inFlight_idle hidle, rspValid_eq_false_of_phase hreset (by simp), fun hlow => ?_, fun hhigh => ?_,
    hrom, hdigit⟩
  · exact (reqReady_iff hreset).2 ⟨hidle, hlow⟩
  · exact (handshake_low_of_rst hreset hhigh).1

/-! ### What many edges keep -/

theorem runEdges_succ (n : Nat) (s : State) : runEdges (n + 1) s = runEdges n s.afterStep := by
  simp only [runEdges, step_eq_next_afterStep]

/-- Any number of edges leads to a state (R125). -/
theorem exists_runEdges (n : Nat) (s : State) : ∃ t, runEdges n s = .next t := by
  induction n generalizing s with
  | zero => exact ⟨s, rfl⟩
  | succ n ih => rw [runEdges_succ]; exact ih s.afterStep

/-- What every step keeps, any number of edges keeps. -/
theorem runEdges_keeps {P : State → Prop} (hkeeps : ∀ s t, P s → step s = .next t → P t) {n : Nat}
    {s t : State} (hs : P s) (hrun : runEdges n s = .next t) : P t := by
  induction n generalizing s with
  | zero => cases hrun; exact hs
  | succ n ih =>
    rw [runEdges_succ] at hrun
    exact ih (hkeeps s _ hs (step_eq_next_afterStep s)) hrun

/-! ### Before and after the first reset -/

theorem State.awaitingReset_of_powerUp {s : State} (hp : s.phase = .powerUp) : s.awaitingReset = true := by
  unfold State.awaitingReset; rw [hp]

/-- Before the first reset the handshake outputs are free levels (R127; log entry 14). -/
theorem handshake_free_of_powerUp {s : State} (hp : s.phase = .powerUp) :
    s.reqReady = Config.freeBit s.drawn ∧ s.rspValid = Config.freeBit (s.drawn + 1) := by
  have hawaiting := State.awaitingReset_of_powerUp hp
  exact ⟨if_pos hawaiting, if_pos hawaiting⟩

/-- The first reset is still to come, and not at the next edges. -/
def AwaitsLaterReset (s : State) : Prop := s.phase = .powerUp ∧ NoResetAhead s

/-- Without RST = 1 an edge does not end the time before the first reset (R127). -/
theorem step_keeps_awaitsLaterReset (s t : State) (h : AwaitsLaterReset s) (hstep : step s = .next t) :
    AwaitsLaterReset t := by
  obtain ⟨hp, hquiet⟩ := h
  cases (step_of_powerUp hquiet.1 hp).symm.trans hstep
  exact ⟨by simpa using hp, noResetAhead_nextPins (s := s.powerUpEdge) hquiet⟩

theorem step_of_rst_hasBeenReset {s t : State} (hr : s.pins.rst = true) (hstep : step s = .next t) :
    HasBeenReset t := by
  cases (step_of_rst hr).symm.trans hstep
  simp

/-- No way a step can go leads back to power-up: the only one that ends there starts there (R127). -/
theorem step_keeps_hasBeenReset (s t : State) (h : HasBeenReset s) (hstep : step s = .next t) :
    HasBeenReset t := by
  cases (step_eq_next_iff s t).1 hstep with
  | reset hr => exact step_of_rst_hasBeenReset hr hstep
  | powerUp _ hp => exact absurd hp h
  | accept _ _ _ => simp
  | noRequest _ _ _ => simpa using h
  | complete _ _ => simp
  | wait _ _ _ => simp
  | take _ _ _ => simp
  | hold _ _ _ => simpa using h

theorem powerUp_not_hasBeenReset (digitCheck : Bool) (p : Pins) (later : List Pins) :
    ¬HasBeenReset (State.powerUp digitCheck p later) := not_not_intro rfl

/-- At power-up no response is held and the ROM needs no initialisation (R75, R130). -/
theorem inv_powerUp (digitCheck : Bool) (p : Pins) (later : List Pins) :
    Inv (State.powerUp digitCheck p later) := inv_of_not_done rfl (by simp [State.powerUp])

/-- Settles O47: the two sides of the first reset are each kept by the steps that must keep them, hence by any
number of edges. -/
theorem powerUpLastsUntilTheFirstReset : Obligations.PowerUpLastsUntilTheFirstReset := by
  refine ⟨fun d p later => ⟨powerUp_not_hasBeenReset d p later, inv_powerUp d p later⟩,
    fun s h => handshake_free_of_powerUp (not_not.1 h),
    fun s h hr => ⟨_, _, _, step_of_powerUp hr (not_not.1 h)⟩,
    fun n s h hr hscript => ?_,
    fun s t hr hstep => step_of_rst_hasBeenReset hr hstep,
    fun n s t h hrun => runEdges_keeps step_keeps_hasBeenReset h hrun⟩
  have hawaits : AwaitsLaterReset s := ⟨not_not.1 h, hr, hscript⟩
  obtain ⟨t, hrun⟩ := exists_runEdges n s
  have hstill : AwaitsLaterReset t := runEdges_keeps step_keeps_awaitsLaterReset hawaits hrun
  exact ⟨t, hrun, not_not_intro hstill.1⟩

end Sys2Proof.Machine
end
